-- ==== Sys2Proof/Word.lean ====
section
/-! DEFINITION. The byte and the fixed parameters of the block (spec/00_scope.md R8, R9). A `size` is a natural number
(R9), so it is a plain Nat; that it is at most `SIZE_MAX` is an invariant of the machine. -/

namespace Sys2Proof

/-- `BYTE`: an 8-bit unsigned value (R8). -/
abbrev Byte := BitVec 8

/-- `MARKER`, fixed (R8). -/
abbrev marker : Byte := 0x00#8

/-- `MAX_OFFSET`, the largest offset byte, that of a full run (R8). -/
abbrev maxOffset : Byte := 0xFF#8

/-- `MAX_RUN_DATA`, the most data bytes of one run (R8). -/
abbrev maxRunData : Nat := 254

/-- `SIZE_MAX = 2^SIZE_BITS - 1` (R8). -/
def sizeMax (sizeBits : Nat) : Nat := 2 ^ sizeBits - 1

end Sys2Proof
end

