-- ==== Sys2Proof/Config.lean ====
section
/-! DEFINITION. What the spec leaves open for every implementation: the free draws of spec/60_exceptions.md R213, and the one
value that spec/30_encoding.md R85 does not state.
`SIZE_BITS` (R8, D4) is a parameter held in State (log entry 1). -/

namespace Sys2Proof

/-- The byte of the `n`-th free draw: any byte at all, since nothing is known of it (R213, U4, U17; log entry 6). -/
opaque Config.freeByte : Nat → Byte

/-- DESIGN CHOICE (log entry 9): the length of the host's source stream after `DROP k` with `k` above its length, drawn as the
`n`-th free draw: any length at all, since R85 states none. -/
opaque Config.freeLength : Nat → Nat

end Sys2Proof
end

