-- ==== Sys2Proof/Syntax.lean ====
section
/-! DEFINITION. The instructions: one constructor per row of spec/opcode_table.json. -/

namespace Sys2Proof

/-- The four commands (spec/30_encoding.md R80) and the eight wire byte classes (R76). -/
inductive Instr where
  /-- MAXENC, `OP = 0x01` (R100). -/
  | maxEnc
  /-- MAXDEC, `OP = 0x02` (R103). -/
  | maxDec
  /-- ENCODE, `OP = 0x03` (R120, issue step R124). -/
  | encodeCmd
  /-- DECODE, `OP = 0x04` (R160, issue step R161). -/
  | decodeCmd
  /-- ENC.MARKER: source byte 0x00 in ENC_SCAN (R126). -/
  | encMarker
  /-- ENC.DATA: source byte `b`, 0x01 to 0xFF, in ENC_SCAN (R127). -/
  | encData (b : Byte)
  /-- DEC.ZERO_FIRST: 0x00 in DEC_AWAIT_OFFSET with `PREV = 0` (R163). -/
  | decZeroFirst
  /-- DEC.TERMINATOR: 0x00 in DEC_AWAIT_OFFSET with `PREV != 0` (R163). -/
  | decTerminator
  /-- DEC.SHORT_OFFSET: `c`, 0x01 to 0xFE, in DEC_AWAIT_OFFSET (R164). -/
  | decShortOffset (c : Byte)
  /-- DEC.FULL_OFFSET: 0xFF in DEC_AWAIT_OFFSET (R164). -/
  | decFullOffset
  /-- DEC.ZERO_IN_RUN: 0x00 in DEC_COPY_RUN (R165). -/
  | decZeroInRun
  /-- DEC.DATA: `b`, 0x01 to 0xFF, in DEC_COPY_RUN (R165). -/
  | decData (b : Byte)
  deriving DecidableEq, Repr

end Sys2Proof
end

