-- ==== Sys2Proof/WellFormed.lean ====
section
/-! DEFINITION. Which instruction terms the table admits (the byte ranges of spec/30_encoding.md R76). -/

namespace Sys2Proof

/-- A data byte is 0x01 to 0xFF and a short offset 0x01 to 0xFE (R70, R71, R76). -/
def Instr.wellFormed : Instr → Bool
  | .maxEnc => true
  | .maxDec => true
  | .encodeCmd => true
  | .decodeCmd => true
  | .encMarker => true
  | .encData b => b ≠ marker
  | .decZeroFirst => true
  | .decTerminator => true
  | .decShortOffset c => c ≠ marker && c ≠ maxOffset
  | .decFullOffset => true
  | .decZeroInRun => true
  | .decData b => b ≠ marker

end Sys2Proof
end

