-- ==== Sys2Proof/Decode.lean ====
section
/-! DEFINITION. Decoding a byte in its context, and the encoder (spec/30_encoding.md R76, R80, R82; opcode_table.json). -/

namespace Sys2Proof

/-- Where a byte is read: the "context" column of R76, and the host's write to `OP` (R81). -/
inductive Context where
  /-- a host write to `OP` (R81) -/
  | command
  /-- `SRC[RD]` in ENC_SCAN -/
  | encScan
  /-- `SRC[RD]` in DEC_AWAIT_OFFSET with `PREV = 0` -/
  | decAwaitFirst
  /-- `SRC[RD]` in DEC_AWAIT_OFFSET with `PREV != 0` -/
  | decAwaitNext
  /-- `SRC[RD]` in DEC_COPY_RUN -/
  | decCopyRun
  deriving DecidableEq, Repr

/-- What the decoder answers. -/
inductive Decoded where
  /-- an instruction, and the bytes after it -/
  | instr (i : Instr) (rest : List Byte)
  /-- a value of `OP` that selects no command (R82) -/
  | reservedOp (code : Byte)
  /-- no byte to decode -/
  | noByte
  deriving DecidableEq, Repr

/-- The command a value of `OP` selects (R80); the other values are reserved (R82). -/
def decodeOp (code : Byte) : Option Instr :=
  if code = 0x01#8 then some .maxEnc
  else if code = 0x02#8 then some .maxDec
  else if code = 0x03#8 then some .encodeCmd
  else if code = 0x04#8 then some .decodeCmd
  else none

/-- The class of an offset byte other than 0x00 (R76). -/
def decodeOffset (c : Byte) : Instr :=
  if c = maxOffset then .decFullOffset else .decShortOffset c

/-- Total on any bytes: every byte has one class in each wire context (R76), and an `OP` value outside R80 is
rejected by name (R82). Every encoding is one byte long. -/
def decode (ctx : Context) : List Byte → Decoded
  | [] => .noByte
  | b :: rest =>
    match ctx with
    | .command =>
      match decodeOp b with
      | some i => .instr i rest
      | none => .reservedOp b
    | .encScan => .instr (if b = marker then .encMarker else .encData b) rest
    | .decAwaitFirst => .instr (if b = marker then .decZeroFirst else decodeOffset b) rest
    | .decAwaitNext => .instr (if b = marker then .decTerminator else decodeOffset b) rest
    | .decCopyRun => .instr (if b = marker then .decZeroInRun else .decData b) rest

/-- The bytes of an instruction (R76, R80; column "encoding" of opcode_table.json). -/
def encode : Instr → List Byte
  | .maxEnc => [0x01#8]
  | .maxDec => [0x02#8]
  | .encodeCmd => [0x03#8]
  | .decodeCmd => [0x04#8]
  | .encMarker => [0x00#8]
  | .encData b => [b]
  | .decZeroFirst => [0x00#8]
  | .decTerminator => [0x00#8]
  | .decShortOffset c => [c]
  | .decFullOffset => [0xFF#8]
  | .decZeroInRun => [0x00#8]
  | .decData b => [b]

/-- The contexts in which an instruction's byte stands for it (column "context" of R76). -/
def contexts : Instr → List Context
  | .maxEnc => [.command]
  | .maxDec => [.command]
  | .encodeCmd => [.command]
  | .decodeCmd => [.command]
  | .encMarker => [.encScan]
  | .encData _ => [.encScan]
  | .decZeroFirst => [.decAwaitFirst]
  | .decTerminator => [.decAwaitNext]
  | .decShortOffset _ => [.decAwaitFirst, .decAwaitNext]
  | .decFullOffset => [.decAwaitFirst, .decAwaitNext]
  | .decZeroInRun => [.decCopyRun]
  | .decData _ => [.decCopyRun]

/-- DESIGN CHOICE (log entry 11). One byte names up to four rows of the table, told apart only by their context, and a bare
table word carries no context. The word is read in the context of the FIRST row of the table that it can be, rows with
fixed bits before rows without: 0x01 to 0x04 a command, 0x00 ENC.MARKER, 0xFF DEC.FULL_OFFSET, every other value ENC.DATA. -/
def tableContext (b : Byte) : Context :=
  if (decodeOp b).isSome then .command
  else if b = maxOffset then .decAwaitFirst
  else .encScan

/-- The instruction the decoder reads from a bare word of the opcode table (every row is one byte), in `tableContext`. -/
def decodeTableWord (nbits w : Nat) : Option Instr :=
  if nbits = 8 ∧ w < 256 then
    match decode (tableContext (BitVec.ofNat 8 w)) [BitVec.ofNat 8 w] with
    | .instr i _ => some i
    | .reservedOp _ => none
    | .noByte => none
  else none

end Sys2Proof
end

