-- ==== Sys2Proof/Machine/State.lean ====
section
/-! DEFINITION. The state of the block and of its host, plain data (spec/10_state.md R20 to R34, spec/20_memory.md R50, R60). -/

namespace Sys2Proof.Machine

open Sys2Proof

/-- The engine's state (R26). The source's Terminated and Failed states are the completion step (R211). -/
inductive Phase where
  | idle
  | encScan
  | encFinish
  | decAwaitOffset
  | decCopyRun
  deriving DecidableEq, Repr

/-- The outcome kinds (R22, R84). -/
inductive Status where
  | ok
  | writeOverflow
  | readOverflow
  | unexpectedZero
  deriving DecidableEq, Repr

/-- The host-visible registers, numbered 0 to 8 in this order (R20). -/
inductive HostReg where
  | op
  | srcLen
  | dstCap
  | arg
  | status
  | produced
  | consumed
  | result
  | busy
  deriving DecidableEq, Repr

/-- A value in a host statement: a number, or the register name `RESULT`, "its value at that point" (R85). -/
inductive HostVal where
  | lit (n : Nat)
  | result
  deriving DecidableEq, Repr

/-- The two buffers (R50). -/
inductive Buffer where
  | src
  | dst
  deriving DecidableEq, Repr

/-- One move of the host (R67, R83, R85). A statement `ENCODE n, k` and the like is a command record: four writes (R83). -/
inductive HostStmt where
  /-- write a register; a write to `OP` issues the command (R21, R81) -/
  | write (r : HostReg) (v : HostVal)
  /-- read a host-visible register (R20, R67 "collect"); a read of `BUSY` is the one move made while `BUSY = 1` (R67 "wait") -/
  | read (r : HostReg)
  /-- `LOAD [bytes]`: write the bytes into `SRC` from index 0 -/
  | load (bytes : List Byte)
  /-- `MOVE i, j`: copy `DST[i:j]` into `SRC` from index 0 -/
  | move (i j : Nat)
  /-- `DROP k`: `SRC <- SRC[k:]` -/
  | drop (k : HostVal)
  /-- `APPEND [bytes]`: add bytes at the end of the source stream -/
  | append (bytes : List Byte)
  /-- write the bytes into a buffer from index `i` (R50, R67: the buffers are the host's while `BUSY = 0`) -/
  | store (m : Buffer) (i : Nat) (bytes : List Byte)
  /-- read the byte at index `i` of a buffer (R67 "collect") -/
  | fetch (m : Buffer) (i : Nat)
  /-- send nothing for one step (R67 "wait") -/
  | wait
  /-- `IF STATUS = name GOTO label` -/
  | ifStatus (st : Status) (l : Nat)
  /-- `GOTO label` -/
  | goto (l : Nat)
  /-- `label:` names the next statement -/
  | label (l : Nat)
  deriving DecidableEq, Repr

/-- The host agent (R60): its program, the index of its next statement, the length of its source stream (R85 DROP, APPEND)
and the value it last read from a register. DESIGN CHOICE (log entry 8): the host is held as a program, so that
plain data says which agent moves next. -/
structure HostAgent where
  prog : List HostStmt
  pos : Nat
  streamLen : Nat
  lastRead : Nat
  deriving DecidableEq, Repr

/-- Which command and result registers have been written since the last reset (R20 "unwritten", R240). The four result
registers are only ever written together (R211), so they share one mark. -/
structure Written where
  op : Bool
  srcLen : Bool
  dstCap : Bool
  arg : Bool
  results : Bool
  deriving DecidableEq, Repr

/-- A byte buffer: (index, byte) cells, indices strictly rising. An index that is not listed holds no byte: reading it
faults (log entry 5). -/
abbrev Memory := List Host.Cell

/-- Every index is at least `lo` and the indices strictly rise. -/
def Memory.wfFrom : Nat → Memory → Bool
  | _, [] => true
  | lo, (a, _) :: t => decide (lo ≤ a) && Memory.wfFrom (a + 1) t

/-- The canonical form: indices strictly rising, so no index is listed twice. -/
def Memory.wf (m : Memory) : Bool := Memory.wfFrom 0 m

/-- The block, its two buffers and its host. -/
structure State where
  /-- `SIZE_BITS` (R8, D4): the open parameter; no step writes it (log entry 1) -/
  sizeBits : Nat
  /-- register 0, `OP` (R21) -/
  op : Byte
  /-- register 1, `SRC_LEN` (R21) -/
  srcLen : Nat
  /-- register 2, `DST_CAP` (R21) -/
  dstCap : Nat
  /-- register 3, `ARG` (R21) -/
  arg : Nat
  /-- register 4, `STATUS` (R22) -/
  status : Status
  /-- register 5, `PRODUCED` (R24) -/
  produced : Nat
  /-- register 6, `CONSUMED` (R25) -/
  consumed : Nat
  /-- register 7, `RESULT` (R23) -/
  result : Nat
  /-- which of the registers 0 to 7 have been written (R20, R240) -/
  written : Written
  /-- `PHASE` (R26); register 8, `BUSY`, is computed from it (R20) -/
  phase : Phase
  /-- `RD`, the source read cursor (R27) -/
  rd : Nat
  /-- `WR`, the destination data cursor (R28) -/
  wr : Nat
  /-- `RUN`, the encoder's byte-run counter (R29) -/
  run : Byte
  /-- `OFS_PTR`, the encoder's offset tracker (R30) -/
  ofsPtr : Nat
  /-- `PEND`, the encoder's pending-slot flag (R31) -/
  pend : Bool
  /-- `REM`, the decoder's byte-run counter (R32) -/
  rem : Byte
  /-- `PREV`, the decoder's offset tracker (R33) -/
  prev : Byte
  /-- `SRC`, the source buffer (R50 (a)) -/
  src : Memory
  /-- `DST`, the destination buffer (R50 (b)) -/
  dst : Memory
  /-- the host (R60) -/
  host : HostAgent
  /-- the hardware reset input (R240, R243): `some n` when a reset arrives after `n` more steps (log entry 7) -/
  resetIn : Option Nat
  /-- the MODEL's own field: how many free draws have been made (R213, R85; log entries 6 and 9) -/
  freeCount : Nat
  deriving DecidableEq, Repr

/-- Why the machine stops with a fault. The block itself has no traps (R210); these are the spec's faults of a model. -/
inductive Fault where
  /-- A read of a command or result register before its first write (R20, R240, D14, U15): by the host, raised by `hostStmt`, or
  by a command that takes it as an operand (R80, R81), raised by the four commands. Safe. -/
  | unwrittenRegister (r : HostReg)
  /-- The engine reads `SRC[i]` with `i < SRC_LEN`, and the host has put no byte there, against its duty in R67 and R244, or the
  host itself reads there. Raised by `engineStep` and `hostStmt`. Safe. -/
  | sourceByteAbsent (i : Nat)
  /-- The host reads or copies `DST[i]` (R67, R85 MOVE), and that index holds no byte. Raised by `hostStmt`. Safe. -/
  | destinationByteAbsent (i : Nat)
  deriving DecidableEq, Repr

/-- Why a step has no meaning. -/
inductive Refusal where
  /-- The instruction has no meaning in this model yet. Raised by an arm of `exec` alone. Safe. -/
  | notModelled (mnemonic : String)
  /-- A write to `OP` of a reserved code (R82, U11). Raised by `runByte`. Safe. -/
  | reservedOp (code : Byte)
  /-- MAXENC whose value exceeds `SIZE_MAX` (R100, U12, D4). Raised by `execMaxEnc`. Safe. -/
  | resultExceedsSizeMax
  /-- A command issued while `BUSY = 1` (R82, R67, U14). Raised by the four commands. Safe. -/
  | commandWhileBusy
  /-- A wire byte class outside its context (R76): no step of the machine asks for it. Raised by the eight classes. Safe. -/
  | outOfContext
  /-- A wire byte class with `RD >= SRC_LEN` (R125, R162, R165 read a byte only below `SRC_LEN`): no step of the machine asks
  for it. Raised by the eight classes and, with no byte to decode, by `runByte`. Safe. -/
  | noSourceByte
  /-- A host write of a value that the register's width cannot hold (R20). Raised by `hostStmt`. Safe. -/
  | valueTooWide (r : HostReg)
  /-- A host write to a read-only register (R20). Raised by `hostStmt`. Safe. -/
  | readOnlyRegister (r : HostReg)
  /-- A host jump to a label that its program does not have (R85). Raised by `hostStmt`. Safe. -/
  | unknownLabel (l : Nat)
  deriving DecidableEq, Repr

/-- A host with no program. -/
def HostAgent.none : HostAgent := { prog := [], pos := 0, streamLen := 0, lastRead := 0 }

/-- No register written (R240). -/
def Written.none : Written := { op := false, srcLen := false, dstCap := false, arg := false, results := false }

/-- The machine after hardware reset, for a given `SIZE_BITS` (R240): IDLE, no register written, nothing known of the host's
buffers. DESIGN CHOICE: the values the unwritten registers (log entry 2) and the unspecified datapath registers (log entry 3)
hold are zero, and OK for `STATUS`. A read of an unwritten register faults, so no run shows its value. -/
def State.resetAt (sizeBits : Nat) : State :=
  { sizeBits := sizeBits
    op := 0x00#8, srcLen := 0, dstCap := 0, arg := 0
    status := .ok, produced := 0, consumed := 0, result := 0
    written := Written.none
    phase := .idle
    rd := 0, wr := 0, run := 0x00#8, ofsPtr := 0, pend := false, rem := 0x00#8, prev := 0x00#8
    src := [], dst := []
    host := HostAgent.none
    resetIn := Option.none
    freeCount := 0 }

/-- The machine right after reset. DESIGN CHOICE (log entry 1): `SIZE_BITS = 16`, the width the spec's own vectors use
(95_test_vectors.md V-M12 to V-M14, V-X07); every statement holds for every width. -/
def State.reset : State := State.resetAt 16

end Sys2Proof.Machine
end

