-- ==== Sys2Proof/Machine/Ops.lean ====
section
/-! DEFINITION. The named operations over the buffers and the registers, the completion of a command (this block's only way
of reporting a failure, spec/60_exceptions.md R210 to R213) and the hardware reset (spec/70_reset_and_hazards.md R240, R243). -/

namespace Sys2Proof.Machine

open Sys2Proof

/-! Buffers (spec/20_memory.md R51, R52, R56). -/

/-- `MemRead(m, i, 1)`; none where no byte is held. -/
def Memory.read : Memory → Nat → Option Byte
  | [], _ => none
  | (a, v) :: t, i => if a = i then some v else Memory.read t i

/-- `MemWrite(m, i, 1, v)`, keeping the cells in rising order of index. -/
def Memory.write : Memory → Nat → Byte → Memory
  | [], i, v => [(i, v)]
  | (a, w) :: t, i, v =>
    if i < a then (i, v) :: (a, w) :: t
    else if i = a then (i, v) :: t
    else (a, w) :: Memory.write t i v

/-- The bytes `vs` at indices `i`, `i + 1`, and so on. -/
def Memory.writeList : Memory → Nat → List Byte → Memory
  | m, _, [] => m
  | m, i, v :: vs => Memory.writeList (Memory.write m i v) (i + 1) vs

/-- The `n` bytes from index `i`, if all are held. -/
def Memory.bytesAt (m : Memory) : Nat → Nat → Option (List Byte)
  | _, 0 => some []
  | i, n + 1 =>
    match Memory.read m i, Memory.bytesAt m (i + 1) n with
    | some b, some bs => some (b :: bs)
    | _, _ => none

/-- The first of the `n` indices from `i` on that holds no byte; `i + n` if all hold one. -/
def Memory.firstAbsent (m : Memory) : Nat → Nat → Nat
  | i, 0 => i
  | i, n + 1 => if (Memory.read m i).isSome then Memory.firstAbsent m (i + 1) n else i

/-- `n` cells from index `i` on, the `k`-th of them holding draw `from_ + k`. -/
def Memory.draws : Nat → Nat → Nat → Memory
  | _, _, 0 => []
  | i, d, n + 1 => (i, Config.freeByte d) :: Memory.draws (i + 1) (d + 1) n

/-- The cells at index `n` and above. -/
def Memory.dropBelow (n : Nat) (m : Memory) : Memory := m.filter (fun c => decide (n ≤ c.1))

/-- Every byte at index below `n` a free draw, draws numbered from `d`; the rest as it was (R213). -/
def Memory.drawBelow (m : Memory) (n d : Nat) : Memory := Memory.draws 0 d n ++ Memory.dropBelow n m

/-- `m[k:]`, renumbered from 0 (R85 DROP). -/
def Memory.shiftDown (m : Memory) (k : Nat) : Memory := (Memory.dropBelow k m).map (fun c => (c.1 - k, c.2))

/-! Registers. -/

/-- `BUSY`: "always equal to `PHASE != IDLE`" (R20). -/
def State.busy (s : State) : Bool := decide (s.phase ≠ .idle)

/-- The code of a status (R84). -/
def Status.code : Status → BitVec 2
  | .ok => 0#2
  | .writeOverflow => 1#2
  | .readOverflow => 2#2
  | .unexpectedZero => 3#2

/-- The number of a host-visible register (R20). -/
def HostReg.number : HostReg → Nat
  | .op => 0
  | .srcLen => 1
  | .dstCap => 2
  | .arg => 3
  | .status => 4
  | .produced => 5
  | .consumed => 6
  | .result => 7
  | .busy => 8

/-- A host-visible register's value, as a number. -/
def State.regValue (s : State) : HostReg → Nat
  | .op => s.op.toNat
  | .srcLen => s.srcLen
  | .dstCap => s.dstCap
  | .arg => s.arg
  | .status => s.status.code.toNat
  | .produced => s.produced
  | .consumed => s.consumed
  | .result => s.result
  | .busy => s.busy.toNat

/-- Whether a host-visible register has been written since reset; `BUSY` has a value always (R20, R240). -/
def State.isWritten (s : State) : HostReg → Bool
  | .op => s.written.op
  | .srcLen => s.written.srcLen
  | .dstCap => s.written.dstCap
  | .arg => s.written.arg
  | .status => s.written.results
  | .produced => s.written.results
  | .consumed => s.written.results
  | .result => s.written.results
  | .busy => true

/-- The write to `OP` (R81). -/
def State.latchOp (s : State) (code : Byte) : State :=
  { s with op := code, written := { s.written with op := true } }

/-- `RD <- RD + 1`, after a read of `SRC[RD]` (R27). -/
def State.advanceRd (s : State) : State := { s with rd := s.rd + 1 }

/-- `DST[i] <- v` (R52). -/
def State.putDst (s : State) (i : Nat) (v : Byte) : State := { s with dst := s.dst.write i v }

/-- `DST[OFS_PTR] <- v`: finalize the reserved slot, with no bound check of its own (R128). -/
def State.finalizeSlot (s : State) (v : Byte) : State := s.putDst s.ofsPtr v

/-- `DST[WR] <- v; WR <- WR + 1` (R28), its bound already checked. -/
def State.placeByte (s : State) (v : Byte) : State := { s with dst := s.dst.write s.wr v, wr := s.wr + 1 }

/-- `OFS_PTR <- WR; WR <- WR + 1; RUN <- 1`, the bound already checked (R126, R127). -/
def State.openSlot (s : State) : State := { s with ofsPtr := s.wr, wr := s.wr + 1, run := 0x01#8 }

/-! Completion (R211 to R213): the one shared way a command ends, with any status. -/

/-- `complete(s, c, p, r)` (R211): the four result registers in one step, and `PHASE <- IDLE`. -/
def State.complete (s : State) (st : Status) (c p r : Nat) : State :=
  { s with
    status := st, consumed := c, produced := p, result := r
    written := { s.written with results := true }
    phase := .idle }

/-- Every byte of `DST[0:DST_CAP]` becomes a free draw; no byte outside is touched (R213, D6). DESIGN CHOICE (log entries 6 and
16): the draws are numbered by this instance's own counter, so two instances whose counters agree draw the same bytes,
a relation the spec does not give. -/
def State.drawDst (s : State) : State :=
  { s with dst := s.dst.drawBelow s.dstCap s.freeCount, freeCount := s.freeCount + s.dstCap }

/-- A completion with a status other than OK: `complete(st, c, 0, 0)` (R212), and `DST[0:DST_CAP]` unspecified (R213). -/
def State.fail (s : State) (st : Status) (c : Nat) : State := s.drawDst.complete st c 0 0

/-- Reserve the next offset slot at `WR`, after checking its bound (R126, R127). -/
def State.reserveSlot (s : State) : State :=
  if s.wr < s.dstCap then s.openSlot else s.fail .writeOverflow 0

/-- Write `v` at `WR` after checking the bound, then go on with `k`; WRITE_OVERFLOW with nothing meaningful if it does not
fit (R126, R127, R129, R164, R165). -/
def State.pushThen (s : State) (v : Byte) (k : State → State) : State :=
  if s.wr < s.dstCap then k (s.placeByte v) else s.fail .writeOverflow 0

/-! The issue step and the reading of one byte, shared by the meanings. -/

/-- The first of these registers that has not been written since reset. -/
def State.firstUnwritten (s : State) (rs : List HostReg) : Option HostReg := rs.find? fun r => !s.isWritten r

/-- A write of a command's code to `OP` while `BUSY = 0`: the issue step (R81), which takes the operands from the command
registers `operands` (R80), and faults where one of them is unwritten (R20, R240, D14; log entry 4). While `BUSY = 1` it
has no meaning (R82, R67). -/
def State.issueThen (s : State) (code : Byte) (operands : List HostReg)
    (k : State → Host.Outcome State Fault Refusal) : Host.Outcome State Fault Refusal :=
  if s.phase = .idle then
    match s.firstUnwritten operands with
    | none => k (s.latchOp code)
    | some r => .fault (.unwrittenRegister r)
  else .refused .commandWhileBusy

/-- A step of phase `ph` that has read `SRC[RD]`: `RD <- RD + 1`, then `k` (R126, R127, R163 to R165). `ok` is what else the
class's context asks (R76). -/
def State.readThen (s : State) (ph : Phase) (ok : Bool) (k : State → State) : Host.Outcome State Fault Refusal :=
  if s.phase = ph ∧ ok = true then
    if s.rd < s.srcLen then .next (k s.advanceRd) else .refused .noSourceByte
  else .refused .outOfContext

/-! Hardware reset (R240, R243). -/

/-- The hardware reset. The block returns to the state of R240; the host, its `SRC` and the parameter stay. A reset while
`BUSY = 1` abandons the command, reports no completion and leaves `DST[0:DST_CAP]` unspecified (R243). -/
def State.hardReset (s : State) : State :=
  { State.resetAt s.sizeBits with
    src := s.src
    dst := if s.busy then s.dst.drawBelow s.dstCap s.freeCount else s.dst
    host := s.host
    freeCount := if s.busy then s.freeCount + s.dstCap else s.freeCount }

end Sys2Proof.Machine
end

