-- ==== Sys2Proof/Machine/Flags.lean ====
section
/-! DEFINITION. The block's status indications and tests. It has no condition codes (spec/10_state.md R37): only marker
detection, which is the test `b = marker` of `decode` (R34), the tests on `RUN` and `PREV` (R34), and `PREV = 0` (R33). -/

namespace Sys2Proof.Machine

open Sys2Proof

/-- No offset byte has been read yet in this packet: `PREV = 0` (R33). -/
def State.firstOffset (s : State) : Bool := decide (s.prev = 0x00#8)

/-- The previous run was short, so its elided zero is restored before the next run: `PREV` in 1 to 254 (R33, R164). -/
def State.restoresZero (s : State) : Bool := decide (s.prev ≠ 0x00#8) && decide (s.prev ≠ maxOffset)

/-- The run has its 254 data bytes: `RUN = 0xFF` (R127). -/
def State.runFull (s : State) : Bool := decide (s.run = maxOffset)

/-- Source bytes remain: `RD < SRC_LEN` (R127). -/
def State.sourceRemains (s : State) : Bool := decide (s.rd < s.srcLen)

end Sys2Proof.Machine
end

