-- ==== Sys2Proof/Machine/Operands.lean ====
section
/-! DEFINITION. Operands: the commands' operands are the command registers (spec/10_state.md R21, R35), read as they stand at
the issue step (spec/30_encoding.md R81); the wire classes' operand is the byte itself (R75); the host's values are R85's. -/

namespace Sys2Proof.Machine

open Sys2Proof

/-- The length operand of MAXENC and MAXDEC: `ARG` (R21). -/
def State.lengthOperand (s : State) : Nat := s.arg

/-- The command registers that MAXENC and MAXDEC read (R80). -/
def estimatorOperands : List HostReg := [.arg]

/-- The command registers that ENCODE and DECODE read (R80). -/
def codecOperands : List HostReg := [.srcLen, .dstCap]

/-- The run counter an offset byte loads: `REM <- c - 1`, unsigned and unscaled (R75). -/
def remOfOffset (c : Byte) : Byte := c - 0x01#8

/-- The context in which the engine reads its next byte (R76); none in a phase that reads no byte. -/
def State.context (s : State) : Option Context :=
  match s.phase with
  | .idle => none
  | .encScan => some .encScan
  | .encFinish => none
  | .decAwaitOffset => some (if s.firstOffset then .decAwaitFirst else .decAwaitNext)
  | .decCopyRun => some .decCopyRun

/-- A host value: a number, or `RESULT` at that point (R85); none when `RESULT` is unwritten (R20, U15). -/
def State.hostVal (s : State) : HostVal → Option Nat
  | .lit n => some n
  | .result => if s.isWritten .result then some s.result else none

end Sys2Proof.Machine
end

