-- ==== Sys2Proof/Machine/Decoder.lean ====
section
/-! DEFINITION. The decoder: DECODE's issue step, its six byte classes, and the end of its source
(spec/42_decoder.md R161 to R166). The order of the checks is R166's: read bound (before a byte is read), byte class
(which class's meaning runs), write bound, write. -/

namespace Sys2Proof.Machine

open Sys2Proof

/-- The decoder's initial values (R161, R242). -/
def State.startDecode (s : State) : State :=
  { s with rd := 0, wr := 0, prev := 0x00#8, rem := 0x00#8, phase := .decAwaitOffset }

/-- DECODE, issue step (R161). -/
def execDecodeCmd (s : State) : Host.Outcome State Fault Refusal :=
  s.issueThen 0x04#8 codecOperands fun s => .next s.startDecode

/-- The source is exhausted, in DEC_AWAIT_OFFSET (R162) or DEC_COPY_RUN (R165). -/
def State.decSourceEnd (s : State) : State := s.fail .readOverflow 0

/-- DEC.ZERO_FIRST (R163): `complete(UNEXPECTED_ZERO, RD, 0, 0)`, `RD` already past the zero. -/
def execDecZeroFirst (s : State) : Host.Outcome State Fault Refusal :=
  s.readThen .decAwaitOffset s.firstOffset fun s => s.fail .unexpectedZero s.rd

/-- DEC.TERMINATOR (R163): `complete(OK, RD, WR, 0)`; no zero is restored. -/
def execDecTerminator (s : State) : Host.Outcome State Fault Refusal :=
  s.readThen .decAwaitOffset (!s.firstOffset) fun s => s.complete .ok s.rd s.wr 0

/-- The phase with `rem` data bytes still to copy: DEC_COPY_RUN, or DEC_AWAIT_OFFSET when none is (R164, R165). -/
def runPhase (rem : Byte) : Phase := if rem = 0x00#8 then .decAwaitOffset else .decCopyRun

/-- `PREV <- c; REM <- c - 1`, and DEC_COPY_RUN if the run has bytes to copy (R164). -/
def State.loadRun (s : State) (c : Byte) : State :=
  { s with
    prev := c
    rem := remOfOffset c
    phase := runPhase (remOfOffset c) }

/-- A nonzero offset byte (R164): restore the elided zero of a short previous run first. -/
def State.takeOffset (s : State) (c : Byte) : State :=
  if s.restoresZero then s.pushThen marker fun s => s.loadRun c else s.loadRun c

/-- DEC.SHORT_OFFSET (R164). -/
def execDecShortOffset (c : Byte) (s : State) : Host.Outcome State Fault Refusal :=
  s.readThen .decAwaitOffset true fun s => s.takeOffset c

/-- DEC.FULL_OFFSET (R164). -/
def execDecFullOffset (s : State) : Host.Outcome State Fault Refusal :=
  s.readThen .decAwaitOffset true fun s => s.takeOffset maxOffset

/-- DEC.ZERO_IN_RUN (R165): `complete(UNEXPECTED_ZERO, RD, 0, 0)`, the zero included in `RD`. -/
def execDecZeroInRun (s : State) : Host.Outcome State Fault Refusal :=
  s.readThen .decCopyRun true fun s => s.fail .unexpectedZero s.rd

/-- `REM <- REM - 1`, and back to DEC_AWAIT_OFFSET when the run is copied (R165). -/
def State.countDown (s : State) : State :=
  { s with rem := s.rem - 0x01#8, phase := runPhase (s.rem - 0x01#8) }

/-- DEC.DATA (R165). -/
def execDecData (b : Byte) (s : State) : Host.Outcome State Fault Refusal :=
  s.readThen .decCopyRun true fun s => s.pushThen b fun s => s.countDown

end Sys2Proof.Machine
end

