-- ==== Sys2Proof/Machine/Encoder.lean ====
section
/-! DEFINITION. The encoder: ENCODE's issue step, its two byte classes, and its two steps that read no byte
(spec/41_encoder.md R124 to R129). -/

namespace Sys2Proof.Machine

open Sys2Proof

/-- Slot 0 reserved, the counters at their initial values (R124, R242). -/
def State.startEncode (s : State) : State :=
  { s with ofsPtr := 0, pend := true, wr := 1, run := 0x01#8, rd := 0, phase := .encScan }

/-- ENCODE, issue step (R124). -/
def execEncodeCmd (s : State) : Host.Outcome State Fault Refusal :=
  s.issueThen 0x03#8 codecOperands fun s =>
    if s.dstCap = 0 then .next (s.fail .writeOverflow 0) else .next s.startEncode

/-- ENC.MARKER (R126). -/
def execEncMarker (s : State) : Host.Outcome State Fault Refusal :=
  s.readThen .encScan true fun s => (s.finalizeSlot s.run).reserveSlot

/-- `RUN <- RUN + 1` (R127). -/
def State.countRun (s : State) : State := { s with run := s.run + 0x01#8 }

/-- The end of a full run (R127): finalize with 0xFF, then a new run if source bytes remain, else no pending slot. -/
def State.closeFullRun (s : State) : State :=
  if s.sourceRemains then (s.finalizeSlot maxOffset).reserveSlot
  else { s.finalizeSlot maxOffset with pend := false }

/-- ENC.DATA (R127). -/
def execEncData (b : Byte) (s : State) : Host.Outcome State Fault Refusal :=
  s.readThen .encScan true fun s =>
    s.pushThen b fun s => if s.countRun.runFull then s.countRun.closeFullRun else s.countRun

/-- ENC_SCAN with the source exhausted (R125). -/
def State.encSourceEnd (s : State) : State := { s with phase := .encFinish }

/-- ENC_FINISH (R129): finalize the pending slot, append the terminator, complete. -/
def State.finishEncode (s : State) : State :=
  (if s.pend then s.finalizeSlot s.run else s).pushThen marker fun s => s.complete .ok 0 s.wr 0

end Sys2Proof.Machine
end

