-- ==== Sys2Proof/Machine/Estimator.lean ====
section
/-! DEFINITION. The capacity estimator, MAXENC and MAXDEC (spec/40_estimator.md). -/

namespace Sys2Proof.Machine

open Sys2Proof

/-- `max_encoded_length(n)`, by R100's pseudocode. -/
def maxEncodedLength (n : Nat) : Nat := if n = 0 then 2 else n + 1 + (n + 253) / 254

/-- `max_decoded_length(m)`, 0 below 2 (R103, D3). -/
def maxDecodedLength (m : Nat) : Nat := if m ≥ 2 then m - 2 else 0

/-- MAXENC (R100): the whole command is its issue step; a value above `SIZE_MAX` is refused. -/
def execMaxEnc (s : State) : Host.Outcome State Fault Refusal :=
  s.issueThen 0x01#8 estimatorOperands fun s =>
    if maxEncodedLength s.lengthOperand > sizeMax s.sizeBits then .refused .resultExceedsSizeMax
    else .next (s.complete .ok 0 0 (maxEncodedLength s.lengthOperand))

/-- MAXDEC (R103): the whole command is its issue step. -/
def execMaxDec (s : State) : Host.Outcome State Fault Refusal :=
  s.issueThen 0x02#8 estimatorOperands fun s => .next (s.complete .ok 0 0 (maxDecodedLength s.lengthOperand))

end Sys2Proof.Machine
end

