-- ==== Sys2Proof/Machine/Dispatch.lean ====
section
/-! DEFINITION. One arm per instruction, each a direct call of its meaning. -/

namespace Sys2Proof.Machine

open Sys2Proof

def exec (i : Instr) (s : State) : Host.Outcome State Fault Refusal :=
  match i with
  | .maxEnc => Sys2Proof.Machine.execMaxEnc s
  | .maxDec => Sys2Proof.Machine.execMaxDec s
  | .encodeCmd => Sys2Proof.Machine.execEncodeCmd s
  | .decodeCmd => Sys2Proof.Machine.execDecodeCmd s
  | .encMarker => Sys2Proof.Machine.execEncMarker s
  | .encData b => Sys2Proof.Machine.execEncData b s
  | .decZeroFirst => Sys2Proof.Machine.execDecZeroFirst s
  | .decTerminator => Sys2Proof.Machine.execDecTerminator s
  | .decShortOffset c => Sys2Proof.Machine.execDecShortOffset c s
  | .decFullOffset => Sys2Proof.Machine.execDecFullOffset s
  | .decZeroInRun => Sys2Proof.Machine.execDecZeroInRun s
  | .decData b => Sys2Proof.Machine.execDecData b s

end Sys2Proof.Machine
end

