-- ==== Sys2Proof/Machine/HostAgent.lean ====
section
/-! DEFINITION. The host's moves other than the issue of a command (spec/20_memory.md R67, spec/30_encoding.md R83, R85). The
host has the step while `BUSY = 0`; while `BUSY = 1` it may only read `BUSY` beside the engine's step (D13, R67). -/

namespace Sys2Proof.Machine

open Sys2Proof

/-- The host goes on to its next statement. -/
def State.hostAdvance (s : State) : State := { s with host := { s.host with pos := s.host.pos + 1 } }

/-- The host goes on at statement `n`. -/
def State.hostJump (s : State) (n : Nat) : State := { s with host := { s.host with pos := n } }

/-- A host write of `n` to a command register other than `OP`; the result registers and `BUSY` are read-only (R20). -/
def State.setRegister (s : State) (r : HostReg) (n : Nat) : Host.Outcome State Fault Refusal :=
  match r with
  | .op => .refused (.valueTooWide .op)
  | .srcLen =>
    if n ≤ sizeMax s.sizeBits then .next { s with srcLen := n, written := { s.written with srcLen := true } }
    else .refused (.valueTooWide .srcLen)
  | .dstCap =>
    if n ≤ sizeMax s.sizeBits then .next { s with dstCap := n, written := { s.written with dstCap := true } }
    else .refused (.valueTooWide .dstCap)
  | .arg =>
    if n ≤ sizeMax s.sizeBits then .next { s with arg := n, written := { s.written with arg := true } }
    else .refused (.valueTooWide .arg)
  | .status => .refused (.readOnlyRegister .status)
  | .produced => .refused (.readOnlyRegister .produced)
  | .consumed => .refused (.readOnlyRegister .consumed)
  | .result => .refused (.readOnlyRegister .result)
  | .busy => .refused (.readOnlyRegister .busy)

/-- A host read: the value goes to the host (R67 "collect"); a register not yet written faults (R20, R240, U15). -/
def State.hostRead (s : State) (r : HostReg) : Host.Outcome State Fault Refusal :=
  if s.isWritten r then .next { s with host := { s.host with lastRead := s.regValue r } }
  else .fault (.unwrittenRegister r)

/-- `LOAD [bytes]` (R85): the stream is these bytes (log entry 9). -/
def State.hostLoad (s : State) (bs : List Byte) : State :=
  { s with src := s.src.writeList 0 bs, host := { s.host with streamLen := bs.length } }

/-- `MOVE i, j` (R85): the stream is the copied bytes (log entry 9). DESIGN CHOICE (log entry 5): where some of them are absent,
the fault names the first index that is. -/
def State.hostMove (s : State) (i j : Nat) : Host.Outcome State Fault Refusal :=
  match s.dst.bytesAt i (j - i) with
  | some bs => .next (s.hostLoad bs)
  | none => .fault (.destinationByteAbsent (s.dst.firstAbsent i (j - i)))

/-- The stream's length is now a free draw (log entry 9). -/
def State.drawStreamLen (s : State) : State :=
  { s with host := { s.host with streamLen := Config.freeLength s.freeCount }, freeCount := s.freeCount + 1 }

/-- `DROP k` (R85). The length of a stream of fewer than `k` bytes is then unstated (log entry 9). -/
def State.hostDrop (s : State) (k : Nat) : State :=
  if k ≤ s.host.streamLen then
    { s with src := s.src.shiftDown k, host := { s.host with streamLen := s.host.streamLen - k } }
  else State.drawStreamLen { s with src := s.src.shiftDown k }

/-- `APPEND [bytes]` (R85). -/
def State.hostAppend (s : State) (bs : List Byte) : State :=
  { s with
    src := s.src.writeList s.host.streamLen bs
    host := { s.host with streamLen := s.host.streamLen + bs.length } }

/-- The host writes bytes into a buffer (R67 "set up": it "may touch everything" while `BUSY = 0`). -/
def State.hostStore (s : State) (m : Buffer) (i : Nat) (bs : List Byte) : State :=
  match m with
  | .src => { s with src := s.src.writeList i bs }
  | .dst => { s with dst := s.dst.writeList i bs }

/-- The host reads a byte of a buffer (R67 "collect": it gets back `DST`). -/
def State.hostFetch (s : State) (m : Buffer) (i : Nat) : Host.Outcome State Fault Refusal :=
  match m with
  | .src =>
    match s.src.read i with
    | some b => .next { s with host := { s.host with lastRead := b.toNat } }
    | none => .fault (.sourceByteAbsent i)
  | .dst =>
    match s.dst.read i with
    | some b => .next { s with host := { s.host with lastRead := b.toNat } }
    | none => .fault (.destinationByteAbsent i)

/-- The index of the statement `label l:` (R85). DESIGN CHOICE (log entry 10): where a program names one label twice, the first
of the two. -/
def labelIndex : List HostStmt → Nat → Option Nat
  | [], _ => none
  | st :: rest, l => if st = .label l then some 0 else (labelIndex rest l).map (· + 1)

/-- `GOTO l` (R85). -/
def State.hostGoto (s : State) (l : Nat) : Host.Outcome State Fault Refusal :=
  match labelIndex s.host.prog l with
  | some n => .next (s.hostJump n)
  | none => .refused (.unknownLabel l)

/-- `IF STATUS = st GOTO l` (R85): a read of `STATUS`, and a jump if it is `st`. -/
def State.hostBranch (s : State) (st : Status) (l : Nat) : Host.Outcome State Fault Refusal :=
  if s.isWritten .status then
    if s.status = st then s.hostGoto l else .next s.hostAdvance
  else .fault (.unwrittenRegister .status)

/-- The host beside a step of the engine: if its next statement is a read of `BUSY` or a wait, it makes it; any other statement
waits until `BUSY = 0` (R61, R67, D13; log entry 8). -/
def State.waitHost (s : State) : HostAgent :=
  if s.host.prog[s.host.pos]? = some (.read .busy) then
    { s.host with pos := s.host.pos + 1, lastRead := s.regValue .busy }
  else if s.host.prog[s.host.pos]? = some .wait then { s.host with pos := s.host.pos + 1 }
  else s.host

/-- The state that the engine's step starts from: the host has made its move, and nothing else has changed. -/
def State.pollHost (s : State) : State := { s with host := s.waitHost }

/-- A command record `{OP=code, SRC_LEN=n, DST_CAP=k, ARG=a}`: its four host writes, in R83's order. -/
def commandRecord (code : Byte) (n k a : HostVal) : List HostStmt :=
  [.write .srcLen n, .write .dstCap k, .write .arg a, .write .op (.lit code.toNat)]

end Sys2Proof.Machine
end

