-- ==== Sys2Proof/Machine/Engine.lean ====
section
/-! DEFINITION. Whose step it is, and what it does: fetching a byte or an `OP` write, decoding it in its context and running it
(spec/30_encoding.md R76, R81, R82; spec/20_memory.md R60, R67; spec/70_reset_and_hazards.md R240, R261). -/

namespace Sys2Proof.Machine

open Sys2Proof

/-- Decode `b` in its context and run the instruction; a reserved `OP` code is refused (R82). -/
def runByte (ctx : Context) (b : Byte) (s : State) : Host.Outcome State Fault Refusal :=
  match decode ctx [b] with
  | .instr i _ => exec i s
  | .reservedOp code => .refused (.reservedOp code)
  | .noByte => .refused .noSourceByte

/-- A host write of `n` to `OP`, an 8-bit register (R80, R81). -/
def writeOp (n : Nat) (s : State) : Host.Outcome State Fault Refusal :=
  if n < 256 then runByte .command (BitVec.ofNat 8 n) s else .refused (.valueTooWide .op)

/-- A host write to a register (R20, R21, R67). -/
def writeRegister (r : HostReg) (n : Nat) (s : State) : Host.Outcome State Fault Refusal :=
  if r = .op then writeOp n s else s.setRegister r n

/-- One statement of the host. A statement that does not jump leaves the host at the next one. -/
def hostStmt (st : HostStmt) (s : State) : Host.Outcome State Fault Refusal :=
  match st with
  | .write r v =>
    match s.hostVal v with
    | some n => writeRegister r n s.hostAdvance
    | none => .fault (.unwrittenRegister .result)
  | .read r => s.hostAdvance.hostRead r
  | .load bs => .next (s.hostAdvance.hostLoad bs)
  | .move i j => s.hostAdvance.hostMove i j
  | .drop v =>
    match s.hostVal v with
    | some k => .next (s.hostAdvance.hostDrop k)
    | none => .fault (.unwrittenRegister .result)
  | .append bs => .next (s.hostAdvance.hostAppend bs)
  | .store m i bs => .next (s.hostAdvance.hostStore m i bs)
  | .fetch m i => s.hostAdvance.hostFetch m i
  | .wait => .next s.hostAdvance
  | .ifStatus stat l => s.hostBranch stat l
  | .goto l => s.hostGoto l
  | .label _ => .next s.hostAdvance

/-- The host's step. When its last statement has completed, an IDLE block "simply takes no step" (R227, D27). -/
def hostStep (s : State) : Host.Outcome State Fault Refusal :=
  match s.host.prog[s.host.pos]? with
  | some st => hostStmt st s
  | none => .next s

/-- The step of a scanning phase whose source is exhausted (R125, R162, R165). -/
def State.sourceEnd (s : State) : State :=
  match s.phase with
  | .idle => s
  | .encScan => s.encSourceEnd
  | .encFinish => s
  | .decAwaitOffset => s.decSourceEnd
  | .decCopyRun => s.decSourceEnd

/-- A step of a phase that reads a byte in context `ctx`: the read bound first (R51, R125, R162, R165), then the byte's class. -/
def scanStep (ctx : Context) (s : State) : Host.Outcome State Fault Refusal :=
  if s.rd < s.srcLen then
    match s.src.read s.rd with
    | some b => runByte ctx b s
    | none => .fault (.sourceByteAbsent s.rd)
  else .next s.sourceEnd

/-- The engine's step while `BUSY = 1`; an IDLE engine takes none (R227). -/
def engineStep (s : State) : Host.Outcome State Fault Refusal :=
  match s.context with
  | some ctx => scanStep ctx s
  | none => if s.phase = .encFinish then .next s.finishEncode else .next s

/-- While `BUSY = 1` the engine moves, and the host at most reads `BUSY` beside it; while `BUSY = 0` only the host moves
(R61, R67, D13). -/
def agentStep (s : State) : Host.Outcome State Fault Refusal :=
  if s.busy then engineStep s.pollHost else hostStep s

/-- The hardware reset, when it arrives, takes the step (R240, R243); until then its countdown runs beside the agents' steps. -/
def machineStep (s : State) : Host.Outcome State Fault Refusal :=
  match s.resetIn with
  | some 0 => .next s.hardReset
  | some (n + 1) => agentStep { s with resetIn := some n }
  | none => agentStep s

/-- A host about to make one write to `OP`, of the code `b`, on an IDLE block (R81), having written the three operand registers
with the values they hold (R244 step 3). -/
def State.placeCommand (s : State) (b : Byte) : State :=
  { s with
    phase := .idle
    resetIn := none
    written := { s.written with srcLen := true, dstCap := true, arg := true }
    host := { s.host with prog := [.write .op (.lit b.toNat)], pos := 0 } }

/-- The engine about to read `b` in an ENC_SCAN that its issue step has just entered (R124), with `SRC_LEN = 1`. `DST_CAP` is 4:
room for a slot, a data byte, a next slot and the terminator. -/
def State.placeEncByte (s : State) (b : Byte) : State :=
  State.startEncode
    { s with
      op := 0x03#8, srcLen := 1, dstCap := 4
      written := { s.written with op := true, srcLen := true, dstCap := true }
      src := s.src.write 0 b
      resetIn := none }

/-- The engine about to read `b` in a DEC_AWAIT_OFFSET that its issue step has just entered (R161), with `SRC_LEN = 1` and
`DST_CAP = 4`. -/
def State.placeDecByte (s : State) (b : Byte) : State :=
  State.startDecode
    { s with
      op := 0x04#8, srcLen := 1, dstCap := 4
      written := { s.written with op := true, srcLen := true, dstCap := true }
      src := s.src.write 0 b
      resetIn := none }

/-- `b` placed where the machine reads its next byte in context `ctx` (log entry 12). The later decoder contexts are placed as
after an offset byte 0x01 (DEC_AWAIT_OFFSET with `PREV != 0`) and inside a run of offset 0x02 (DEC_COPY_RUN): `RD` is 1 and
`SRC_LEN` 2 there, as R40 (a) asks. -/
def State.placeByteFor (s : State) (ctx : Context) (b : Byte) : State :=
  match ctx with
  | .command => s.placeCommand b
  | .encScan => s.placeEncByte b
  | .decAwaitFirst => s.placeDecByte b
  | .decAwaitNext =>
    { s.placeDecByte 0x01#8 with
      srcLen := 2, rd := 1, prev := 0x01#8, src := (s.src.write 0 0x01#8).write 1 b }
  | .decCopyRun =>
    { s.placeDecByte 0x02#8 with
      srcLen := 2, rd := 1, prev := 0x02#8, rem := 0x01#8, phase := .decCopyRun
      src := (s.src.write 0 0x02#8).write 1 b }

end Sys2Proof.Machine
end

