-- ==== Sys2Proof/Machine/Step.lean ====
section
/-! DEFINITION. One step of the machine, and a table word placed where the next step reads it. -/

namespace Sys2Proof.Machine

open Sys2Proof

/-- One step: the hardware reset, the engine or the host (`machineStep`). -/
def step (s : State) : Host.Outcome State Fault Refusal := machineStep s

/-- The table word `w` placed so that the very next step reads, decodes and runs it, in the context that `decodeTableWord`
reads it in (log entries 11 and 12). Every row of the table is one byte, so only the low byte of `w` counts. -/
def State.withFetchWord (s : State) (_nbits w : Nat) : State :=
  s.placeByteFor (tableContext (BitVec.ofNat 8 w)) (BitVec.ofNat 8 w)

end Sys2Proof.Machine
end

