-- ==== Sys2Proof/Machine/Contract.lean ====
section
/-! DEFINITION. The whole-operation functions of the spec, in whose terms claims about ENCODE and DECODE are stated: the packet
grammar and its meaning (spec/30_encoding.md R70, R72), `cobs_encode_bytes` (spec/41_encoder.md R121) and `cobs_decode`
(spec/42_decoder.md R167). The step machine does not use them. -/

namespace Sys2Proof.Machine

open Sys2Proof

/-- `go(x, acc)` of R121: the runs of `x`, `acc` being the data of the current run so far. -/
def runsFrom : List Byte → List Byte → List (List Byte)
  | [], acc => [acc]
  | b :: t, acc =>
    if b = marker then acc :: runsFrom t []
    else if (acc ++ [b]).length = maxRunData then
      if t.isEmpty then [acc ++ [b]] else (acc ++ [b]) :: runsFrom t []
    else runsFrom t (acc ++ [b])

/-- `runs(x)` (R121). -/
def runsOf (x : List Byte) : List (List Byte) := runsFrom x []

/-- One run on the wire: the offset byte `|d| + 1`, then the data (R70). -/
def runBytes (d : List Byte) : List Byte := BitVec.ofNat 8 (d.length + 1) :: d

/-- The packet of a list of runs: the runs in order, then the terminator (R70). -/
def packetOf (rs : List (List Byte)) : List Byte := rs.flatMap runBytes ++ [marker]

/-- `cobs_encode_bytes(x)`, the canonical packet of `x` (R121). -/
def cobsEncodeBytes (x : List Byte) : List Byte := packetOf (runsOf x)

/-- The data of one run: at most 254 bytes, none of them the marker (R70, R71). -/
def IsRunData (d : List Byte) : Prop := d.length ≤ maxRunData ∧ ∀ b ∈ d, b ≠ marker

/-- A list of runs that makes a packet: `run+` (R70). -/
def IsRunList (rs : List (List Byte)) : Prop := rs ≠ [] ∧ ∀ d ∈ rs, IsRunData d

/-- What a packet's runs stand for (R72): a zero after every run but the last, unless the run is full. -/
def decodedOf : List (List Byte) → List Byte
  | [] => []
  | [d] => d
  | d :: d' :: rs => d ++ (if d.length = maxRunData then [] else [marker]) ++ decodedOf (d' :: rs)

/-- The triple R167 returns, with the bytes written to `DST` from index 0. -/
structure DecodeResult where
  status : Status
  consumed : Nat
  produced : Nat
  written : List Byte
  deriving DecidableEq, Repr

/-- R167 from any point of its loop: `need` data bytes of the current run still to copy (0 at an offset position), `prev` the
last offset byte, `rd` bytes read so far, `out` the bytes written so far. -/
def cobsDecodeFrom (cap : Nat) : List Byte → Nat → Byte → Nat → List Byte → DecodeResult
  | [], _, _, _, out => ⟨.readOverflow, 0, 0, out⟩
  | c :: t, 0, prev, rd, out =>
    if c = marker then
      if prev = 0x00#8 then ⟨.unexpectedZero, rd + 1, 0, out⟩
      else ⟨.ok, rd + 1, out.length, out⟩
    else if prev ≠ 0x00#8 ∧ prev ≠ maxOffset then
      if out.length < cap then cobsDecodeFrom cap t (c.toNat - 1) c (rd + 1) (out ++ [marker])
      else ⟨.writeOverflow, 0, 0, out⟩
    else cobsDecodeFrom cap t (c.toNat - 1) c (rd + 1) out
  | b :: t, need + 1, prev, rd, out =>
    if b = marker then ⟨.unexpectedZero, rd + 1, 0, out⟩
    else if out.length < cap then cobsDecodeFrom cap t need prev (rd + 1) (out ++ [b])
    else ⟨.writeOverflow, 0, 0, out⟩

/-- `cobs_decode(SRC[0:n], DST_CAP)` (R167), `src` being `SRC[0:n]`. -/
def cobsDecode (src : List Byte) (cap : Nat) : DecodeResult := cobsDecodeFrom cap src 0 0x00#8 0 []

end Sys2Proof.Machine
end

