-- ==== Sys2Proof/Machine/Instances.lean ====
section
/-! DEFINITION. Several instances of the block (spec/20_memory.md R66, spec/60_exceptions.md R225, D26): any number, each with
its own buffers, sharing no state. DESIGN CHOICE (log entry 16): each instance numbers its own free draws, so instances whose
counters agree draw the same bytes and lengths, a relation between instances that the spec does not give. -/

namespace Sys2Proof.Machine

/-- One step of instance `k`, the others standing still; an instance that does not exist takes no step. DESIGN CHOICE (log entry
16): a fault or a refusal of instance `k` is what this step of it answers, and no list follows; it stops no other instance,
since a step of any other can still be taken from the same `blocks`. -/
def stepInstance (k : Nat) (blocks : List State) : Host.Outcome (List State) Fault Refusal :=
  match blocks[k]? with
  | some s =>
    match step s with
    | .next s' => .next (blocks.set k s')
    | .fault r => .fault r
    | .refused r => .refused r
  | none => .next blocks

end Sys2Proof.Machine
end

