-- ==== Sys2Proof/Safety.lean ====
section
/-! DEFINITION. The terms in which claims are stated: the machine's invariant (spec/10_state.md R39, R40 and the widths of R20),
a command run to its completion, and what a state holds before a command. -/

namespace Sys2Proof.Machine

open Sys2Proof

/-- Every host-visible `size` register is at most `SIZE_MAX` (R20). -/
def State.SizesFit (s : State) : Prop :=
  s.srcLen ≤ sizeMax s.sizeBits ∧ s.dstCap ≤ sizeMax s.sizeBits ∧ s.arg ≤ sizeMax s.sizeBits ∧
    s.produced ≤ sizeMax s.sizeBits ∧ s.consumed ≤ sizeMax s.sizeBits ∧ s.result ≤ sizeMax s.sizeBits

/-- `OP` holds a legal code once written (R20), and a busy engine runs the command it holds (R26). -/
def State.OpLegal (s : State) : Prop :=
  (s.written.op = true → 1 ≤ s.op.toNat ∧ s.op.toNat ≤ 4) ∧
    (s.phase = .encScan ∨ s.phase = .encFinish → s.op = 0x03#8) ∧
    (s.phase = .decAwaitOffset ∨ s.phase = .decCopyRun → s.op = 0x04#8)

/-- While a command runs, the registers it reads have been written, so no step of the engine reads an unwritten one
(R20, R80, R240). -/
def State.OperandsWritten (s : State) : Prop :=
  s.phase ≠ .idle → s.written.op = true ∧ s.written.srcLen = true ∧ s.written.dstCap = true

/-- R39 (a) to (d), with R28's `WR <= DST_CAP`, and R126's "`RUN` is at most 254 here" for a pending slot. -/
def State.EncoderInv (s : State) : Prop :=
  s.phase = .encScan ∨ s.phase = .encFinish →
    (1 ≤ s.run.toNat ∧ s.run.toNat ≤ 255) ∧
    (s.pend = true → s.ofsPtr < s.wr ∧ s.wr ≤ s.dstCap ∧ s.run.toNat = s.wr - s.ofsPtr ∧ s.run.toNat ≤ 254) ∧
    (s.pend = false → s.rd = s.srcLen ∧ s.run = maxOffset) ∧
    s.rd ≤ s.srcLen ∧
    s.wr ≤ s.dstCap ∧
    (s.phase = .encFinish → s.rd = s.srcLen)

/-- R40 (a) to (e). -/
def State.DecoderInv (s : State) : Prop :=
  s.phase = .decAwaitOffset ∨ s.phase = .decCopyRun →
    (s.prev = 0x00#8 ↔ s.rd = 0) ∧
    (s.phase = .decCopyRun → 1 ≤ s.rem.toNat ∧ s.rem.toNat ≤ s.prev.toNat - 1) ∧
    (s.phase = .decAwaitOffset → s.rem = 0x00#8) ∧
    (1 ≤ s.rd → s.wr ≤ s.rd - 1) ∧
    (s.rd = 0 → s.wr = 0) ∧
    s.wr ≤ s.dstCap ∧
    s.rd ≤ s.srcLen

/-- The invariant of the machine. -/
def State.Inv (s : State) : Prop :=
  s.src.wf = true ∧ s.dst.wf = true ∧ s.SizesFit ∧ s.OpLegal ∧ s.EncoderInv ∧ s.DecoderInv ∧
    s.OperandsWritten

/-- At most `k` steps of a running command, stopping when the block is IDLE again. -/
def runCommand : Nat → State → Host.Outcome State Fault Refusal
  | 0, s => .next s
  | k + 1, s =>
    if s.busy then
      match step s with
      | .next s' => runCommand k s'
      | .fault r => .fault r
      | .refused r => .refused r
    else .next s

/-- A whole command: its issue step, then at most `k` further steps (R210, R260). -/
def issueAndRun (i : Instr) (k : Nat) (s : State) : Host.Outcome State Fault Refusal :=
  match exec i s with
  | .next s' => runCommand k s'
  | .fault r => .fault r
  | .refused r => .refused r

/-- The block is IDLE, no hardware reset is on its way, `SRC_LEN` and `DST_CAP` have been written, and `SRC[0:SRC_LEN]` is `x`
(R67, R244). -/
def State.Ready (s : State) (x : List Byte) : Prop :=
  s.phase = .idle ∧ s.resetIn = none ∧ s.written.srcLen = true ∧ s.written.dstCap = true ∧
    s.src.bytesAt 0 s.srcLen = some x

/-- The command registers but `OP`, the source, the host's program and stream, and the parameter are as they were
(R53, R61, R252). -/
def State.SameOperands (s t : State) : Prop :=
  t.sizeBits = s.sizeBits ∧ t.srcLen = s.srcLen ∧ t.dstCap = s.dstCap ∧ t.arg = s.arg ∧ t.src = s.src ∧
    t.host.prog = s.host.prog ∧ t.host.streamLen = s.host.streamLen ∧ t.resetIn = s.resetIn

/-- The result registers are as they were. -/
def State.SameResults (s t : State) : Prop :=
  t.status = s.status ∧ t.produced = s.produced ∧ t.consumed = s.consumed ∧ t.result = s.result

/-- The engine's registers, `PHASE` apart, are as they were. -/
def State.SameDatapath (s t : State) : Prop :=
  t.rd = s.rd ∧ t.wr = s.wr ∧ t.run = s.run ∧ t.ofsPtr = s.ofsPtr ∧ t.pend = s.pend ∧ t.rem = s.rem ∧ t.prev = s.prev

/-- Every byte of `DST` outside `P` reads as before. -/
def State.DstSameOutside (P : Nat → Prop) (s t : State) : Prop := ∀ a, ¬ P a → t.dst.read a = s.dst.read a

/-- The four result registers hold these values, have been written, and the block is IDLE: a completion (R211). -/
def State.Completed (s : State) (st : Status) (c p r : Nat) : Prop :=
  s.status = st ∧ s.consumed = c ∧ s.produced = p ∧ s.result = r ∧ s.written.results = true ∧ s.phase = .idle

end Sys2Proof.Machine
end

