-- ==== Sys2Proof/Certificates/Slice0/Obligations.lean ====
section
/-! DEFINITION. The statements for the provers, each formalising what its docstring names in spec/. -/

open Sys2Proof Sys2Proof.Machine

/-! Reset and invariant. -/

/-- R240: what hardware reset leaves, whatever the state before: IDLE, `BUSY = 0`, every command and result register unwritten,
`SRC` as it was, and `DST` as it was when no command was running; and that a reset which arrives IS the step, on an IDLE block too.
That it leaves the parameter `SIZE_BITS` and the host alone is the model's choice (log entry 1, and log entries 7 and 8), and so is
the form in which a reset arrives (log entry 7). The values the unwritten and unspecified registers then hold (log entries 2
and 3) are the model's choice too, and nothing is said of them here. -/
def Obligations.HardResetLeavesIdleAndUnwritten : Prop :=
  ∀ s : State,
    s.hardReset.phase = .idle ∧ s.hardReset.busy = false ∧ (∀ r, r ≠ .busy → s.hardReset.isWritten r = false) ∧
      s.hardReset.src = s.src ∧ s.hardReset.sizeBits = s.sizeBits ∧ s.hardReset.host = s.host ∧
      (s.phase = .idle → s.hardReset.dst = s.dst) ∧ (s.resetIn = some 0 → step s = .next s.hardReset) ∧
      State.reset.phase = .idle ∧ State.reset.busy = false ∧ (∀ r, r ≠ .busy → State.reset.isWritten r = false)

/-- R243: a hardware reset while `BUSY = 1` takes the step, abandons the command, leaves the result registers unwritten (no
completion is reported) and makes every byte of `DST[0:DST_CAP]` a free draw; `SRC` and the other bytes of `DST` stay (R213, R240).
That a reset arrives as a countdown and takes a step of its own is the model's choice (log entry 7), and so is that byte `a` is
draw number `freeCount + a`, also where `DST` held no byte (log entry 6). -/
def Obligations.ResetWhileBusyAbandonsCommand : Prop :=
  ∀ s : State, s.phase ≠ .idle → s.resetIn = some 0 →
    ∃ t, step s = .next t ∧ t.phase = .idle ∧ t.busy = false ∧ (∀ r, r ≠ .busy → t.isWritten r = false) ∧ t.src = s.src ∧
      (∀ a, a < s.dstCap → t.dst.read a = some (Config.freeByte (s.freeCount + a))) ∧
      (∀ a, s.dstCap ≤ a → t.dst.read a = s.dst.read a)

/-- The invariant of the machine (R20 widths and codes, R39, R40, canonical buffers) holds at reset, for every `SIZE_BITS`. -/
def Obligations.InvariantHoldsAtReset : Prop := State.reset.Inv ∧ ∀ n, (State.resetAt n).Inv

/-- Every step, of the engine, the host or the hardware reset, keeps the invariant. -/
def Obligations.StepKeepsInvariant : Prop := ∀ s t : State, s.Inv → step s = .next t → t.Inv

/-! The capacity estimator. -/

/-- R100: MAXENC on an IDLE block, `ARG` written, completes in its issue step with OK, 0, 0 and `n + 1 + max(1, ceil(n / 254))`; a value above
`SIZE_MAX` is refused. -/
def Obligations.MaxEncReturnsMaxEncodedLength : Prop :=
  ∀ s : State, s.phase = .idle → s.written.arg = true →
    (s.arg + 1 + max 1 ((s.arg + 253) / 254) ≤ sizeMax s.sizeBits →
      ∃ t, exec .maxEnc s = .next t ∧ t.op = 0x01#8 ∧ t.written.op = true ∧
        t.Completed .ok 0 0 (s.arg + 1 + max 1 ((s.arg + 253) / 254))) ∧
    (sizeMax s.sizeBits < s.arg + 1 + max 1 ((s.arg + 253) / 254) → exec .maxEnc s = .refused .resultExceedsSizeMax)

/-- R103: MAXDEC on an IDLE block, `ARG` written, completes in its issue step with OK, 0, 0 and `m - 2`, or 0 when `m < 2`. -/
def Obligations.MaxDecReturnsMaxDecodedLength : Prop :=
  ∀ s : State, s.phase = .idle → s.written.arg = true →
    ∃ t, exec .maxDec s = .next t ∧ t.op = 0x02#8 ∧ t.written.op = true ∧
      (2 ≤ s.arg → t.Completed .ok 0 0 (s.arg - 2)) ∧ (s.arg < 2 → t.Completed .ok 0 0 0)

/-- R105: the estimator commands finish in their issue step, write the result registers only (and `OP`, which the host's
write sets), touch neither buffer, leave the datapath registers alone and keep `PHASE` IDLE; their result depends on
`ARG` (and the parameter) alone. -/
def Obligations.EstimatorFrame : Prop :=
  ∀ i : Instr, i = .maxEnc ∨ i = .maxDec →
    (∀ s t : State, exec i s = .next t →
      s.SameOperands t ∧ t.host = s.host ∧ s.SameDatapath t ∧ t.dst = s.dst ∧ t.freeCount = s.freeCount ∧
        s.phase = .idle ∧ t.phase = .idle ∧ t.written = { s.written with op := true, results := true }) ∧
    (∀ s s' t t' : State, s.arg = s'.arg → s.sizeBits = s'.sizeBits → exec i s = .next t → exec i s' = .next t' →
      t.SameResults t')

/-- R20, R80, R81: a command on an IDLE block faults when a register it takes an operand from has not been written since reset.
That the fault comes at the issue step, and names `SRC_LEN` before `DST_CAP`, is the model's reading (log entry 4). -/
def Obligations.UnwrittenOperandFaults : Prop :=
  ∀ s : State, s.phase = .idle →
    (∀ i : Instr, i = .maxEnc ∨ i = .maxDec → s.written.arg = false → exec i s = .fault (.unwrittenRegister .arg)) ∧
    (∀ i : Instr, i = .encodeCmd ∨ i = .decodeCmd →
      (s.written.srcLen = false → exec i s = .fault (.unwrittenRegister .srcLen)) ∧
      (s.written.srcLen = true → s.written.dstCap = false → exec i s = .fault (.unwrittenRegister .dstCap)))

/-! The encoder. -/

/-- R124: the issue step of ENCODE, its operands written (R20, R80). -/
def Obligations.EncodeIssueStep : Prop :=
  ∀ s : State, s.phase = .idle → s.written.srcLen = true → s.written.dstCap = true →
    (s.dstCap = 0 → ∃ t, exec .encodeCmd s = .next t ∧ t.Completed .writeOverflow 0 0 0) ∧
    (s.dstCap ≠ 0 →
      exec .encodeCmd s =
        .next
          { s.latchOp 0x03#8 with ofsPtr := 0, pend := true, wr := 1, run := 0x01#8, rd := 0, phase := .encScan })

/-- R126: the ENC_SCAN step on a marker. `RUN` is at most 254 here in every state that meets R39. -/
def Obligations.EncMarkerStep : Prop :=
  ∀ s : State, s.phase = .encScan → s.rd < s.srcLen →
    (s.EncoderInv → s.run.toNat ≤ 254) ∧
    (s.dstCap ≤ s.wr → ∃ t, exec .encMarker s = .next t ∧ t.Completed .writeOverflow 0 0 0) ∧
    (s.wr < s.dstCap →
      exec .encMarker s =
        .next
          { s with
            rd := s.rd + 1, dst := s.dst.write s.ofsPtr s.run, ofsPtr := s.wr, wr := s.wr + 1, run := 0x01#8 })

/-- R127: the ENC_SCAN step on a data byte. -/
def Obligations.EncDataStep : Prop :=
  ∀ (s : State) (b : Byte), s.phase = .encScan → s.rd < s.srcLen → b ≠ marker →
    (s.dstCap ≤ s.wr → ∃ t, exec (.encData b) s = .next t ∧ t.Completed .writeOverflow 0 0 0) ∧
    (s.wr < s.dstCap → s.run + 1 ≠ maxOffset →
      exec (.encData b) s =
        .next { s with rd := s.rd + 1, dst := s.dst.write s.wr b, wr := s.wr + 1, run := s.run + 1 }) ∧
    (s.wr < s.dstCap → s.run + 1 = maxOffset → s.rd + 1 < s.srcLen → s.dstCap ≤ s.wr + 1 →
      ∃ t, exec (.encData b) s = .next t ∧ t.Completed .writeOverflow 0 0 0) ∧
    (s.wr + 1 < s.dstCap → s.run + 1 = maxOffset → s.rd + 1 < s.srcLen →
      exec (.encData b) s =
        .next
          { s with
            rd := s.rd + 1, dst := (s.dst.write s.wr b).write s.ofsPtr 0xFF#8, ofsPtr := s.wr + 1, wr := s.wr + 2,
            run := 0x01#8 }) ∧
    (s.wr < s.dstCap → s.run + 1 = maxOffset → s.srcLen ≤ s.rd + 1 →
      exec (.encData b) s =
        .next
          { s with
            rd := s.rd + 1, dst := (s.dst.write s.wr b).write s.ofsPtr 0xFF#8, wr := s.wr + 1, run := 0xFF#8,
            pend := false })

/-- R125: the ENC_SCAN step with the source exhausted changes `PHASE` and nothing else of the block; whatever `SRC` holds, none is
read. That the host's own move, a read of `BUSY` or a wait, comes with this step (`pollHost`) is the model's choice (log entry 8). -/
def Obligations.EncScanSourceEndStep : Prop :=
  ∀ s : State, s.phase = .encScan → s.resetIn = none → s.rd = s.srcLen →
    step s = .next { s.pollHost with phase := .encFinish }

/-- R129: the ENC_FINISH step. -/
def Obligations.EncFinishStep : Prop :=
  ∀ s : State, s.phase = .encFinish → s.resetIn = none →
    (s.wr < s.dstCap →
      ∃ t, step s = .next t ∧ t.Completed .ok 0 (s.wr + 1) 0 ∧ t.wr = s.wr + 1 ∧
        t.dst = (if s.pend = true then s.dst.write s.ofsPtr s.run else s.dst).write s.wr 0x00#8) ∧
    (s.dstCap ≤ s.wr → ∃ t, step s = .next t ∧ t.Completed .writeOverflow 0 0 0)

/-- What ENC.MARKER leaves unchanged: everything but `RD`, the offset slot, the tracker and the counter while the command
runs on; a failing step also writes the result registers and makes `DST` below `DST_CAP` unspecified (R126, R213). -/
def Obligations.EncMarkerFrame : Prop :=
  ∀ s t : State, exec .encMarker s = .next t →
    s.SameOperands t ∧ t.host = s.host ∧ t.op = s.op ∧ t.pend = s.pend ∧ t.rem = s.rem ∧ t.prev = s.prev ∧ t.rd = s.rd + 1 ∧
    (t.phase ≠ .idle →
      s.SameResults t ∧ t.written = s.written ∧ t.freeCount = s.freeCount ∧ t.phase = s.phase ∧
        s.DstSameOutside (fun a => a = s.ofsPtr) t) ∧
    (t.phase = .idle →
      t.written = { s.written with results := true } ∧ t.wr = s.wr ∧ t.run = s.run ∧ t.ofsPtr = s.ofsPtr ∧
        t.freeCount = s.freeCount + s.dstCap ∧ s.DstSameOutside (fun a => a = s.ofsPtr ∨ a < s.dstCap) t)

/-- What ENC.DATA leaves unchanged. It stores at `WR`, and at `OFS_PTR` when the run becomes full (R127, R213). -/
def Obligations.EncDataFrame : Prop :=
  ∀ (b : Byte) (s t : State), exec (.encData b) s = .next t →
    s.SameOperands t ∧ t.host = s.host ∧ t.op = s.op ∧ t.rem = s.rem ∧ t.prev = s.prev ∧ t.rd = s.rd + 1 ∧
    (t.phase ≠ .idle →
      s.SameResults t ∧ t.written = s.written ∧ t.freeCount = s.freeCount ∧ t.phase = s.phase ∧
        (s.run + 1 ≠ maxOffset → t.ofsPtr = s.ofsPtr ∧ t.pend = s.pend) ∧
        s.DstSameOutside (fun a => a = s.wr ∨ (s.run + 1 = maxOffset ∧ a = s.ofsPtr)) t) ∧
    (t.phase = .idle →
      t.written = { s.written with results := true } ∧ t.pend = s.pend ∧ t.ofsPtr = s.ofsPtr ∧
        t.freeCount = s.freeCount + s.dstCap ∧
        s.DstSameOutside (fun a => (s.run + 1 = maxOffset ∧ a = s.ofsPtr) ∨ a < s.dstCap) t)

/-! The decoder. -/

/-- R161: the issue step of DECODE, its operands written (R20, R80). -/
def Obligations.DecodeIssueStep : Prop :=
  ∀ s : State, s.phase = .idle → s.written.srcLen = true → s.written.dstCap = true →
    exec .decodeCmd s =
      .next { s.latchOp 0x04#8 with rd := 0, wr := 0, prev := 0x00#8, rem := 0x00#8, phase := .decAwaitOffset }

/-- R162: the DEC_AWAIT_OFFSET step with the source exhausted; no byte is read (`RD` stays). -/
def Obligations.DecAwaitSourceEndStep : Prop :=
  ∀ s : State, s.phase = .decAwaitOffset → s.resetIn = none → s.srcLen ≤ s.rd →
    ∃ t, step s = .next t ∧ t.Completed .readOverflow 0 0 0 ∧ t.rd = s.rd

/-- R163: a zero at an offset position: UNEXPECTED_ZERO when it is the first byte (`RD` is then 1, by R40), else the
terminator: OK with the bytes read and written, and no zero restored. -/
def Obligations.DecZeroAtOffsetStep : Prop :=
  ∀ s : State, s.phase = .decAwaitOffset → s.rd < s.srcLen →
    (s.prev = 0x00#8 →
      (s.DecoderInv → s.rd + 1 = 1) ∧
        ∃ t, exec .decZeroFirst s = .next t ∧ t.rd = s.rd + 1 ∧ t.Completed .unexpectedZero (s.rd + 1) 0 0) ∧
    (s.prev ≠ 0x00#8 →
      ∃ t, exec .decTerminator s = .next t ∧ t.rd = s.rd + 1 ∧ t.Completed .ok (s.rd + 1) s.wr 0 ∧ t.dst = s.dst)

/-- R164: a nonzero offset byte `c`, short or full. -/
def Obligations.DecOffsetStep : Prop :=
  ∀ (s : State) (c : Byte), s.phase = .decAwaitOffset → s.rd < s.srcLen → c ≠ marker →
    (s.prev ≠ 0x00#8 → s.prev ≠ maxOffset → s.dstCap ≤ s.wr →
      ∃ t, exec (if c = maxOffset then .decFullOffset else .decShortOffset c) s = .next t ∧
        t.Completed .writeOverflow 0 0 0) ∧
    (s.prev ≠ 0x00#8 → s.prev ≠ maxOffset → s.wr < s.dstCap →
      exec (if c = maxOffset then .decFullOffset else .decShortOffset c) s =
        .next
          { s with
            rd := s.rd + 1, dst := s.dst.write s.wr 0x00#8, wr := s.wr + 1, prev := c, rem := c - 1,
            phase := if c = 0x01#8 then .decAwaitOffset else .decCopyRun }) ∧
    (s.prev = 0x00#8 ∨ s.prev = maxOffset →
      exec (if c = maxOffset then .decFullOffset else .decShortOffset c) s =
        .next
          { s with
            rd := s.rd + 1, prev := c, rem := c - 1, phase := if c = 0x01#8 then .decAwaitOffset else .decCopyRun })

/-- R165: the DEC_COPY_RUN step: the source end, a zero in the run, a data byte that does not fit, a data byte copied. `REM` is at
least 1 here in every state that meets R40. -/
def Obligations.DecCopyRunStep : Prop :=
  ∀ s : State, s.phase = .decCopyRun →
    (s.DecoderInv → 1 ≤ s.rem.toNat) ∧
    (s.resetIn = none → s.srcLen ≤ s.rd → ∃ t, step s = .next t ∧ t.Completed .readOverflow 0 0 0) ∧
    (s.rd < s.srcLen → ∃ t, exec .decZeroInRun s = .next t ∧ t.Completed .unexpectedZero (s.rd + 1) 0 0) ∧
    (∀ b : Byte, s.rd < s.srcLen → b ≠ marker →
      (s.dstCap ≤ s.wr → ∃ t, exec (.decData b) s = .next t ∧ t.Completed .writeOverflow 0 0 0) ∧
      (s.wr < s.dstCap →
        exec (.decData b) s =
          .next
            { s with
              rd := s.rd + 1, dst := s.dst.write s.wr b, wr := s.wr + 1, rem := s.rem - 1,
              phase := if s.rem = 0x01#8 then .decAwaitOffset else .decCopyRun }))

/-- R166: the order of the checks of one decoder step, seen where `DST` is full: the read bound comes before the byte's
class, and the class before the write bound. -/
def Obligations.DecoderCheckOrder : Prop :=
  ∀ s : State, s.resetIn = none → s.dstCap ≤ s.wr →
    (s.phase = .decAwaitOffset ∨ s.phase = .decCopyRun → s.srcLen ≤ s.rd →
      ∃ t, step s = .next t ∧ t.Completed .readOverflow 0 0 0) ∧
    (s.phase = .decCopyRun → s.rd < s.srcLen →
      (s.src.read s.rd = some marker → ∃ t, step s = .next t ∧ t.Completed .unexpectedZero (s.rd + 1) 0 0) ∧
      (∀ b, s.src.read s.rd = some b → b ≠ marker → ∃ t, step s = .next t ∧ t.Completed .writeOverflow 0 0 0)) ∧
    (s.phase = .decAwaitOffset → s.rd < s.srcLen →
      (s.src.read s.rd = some marker → s.prev = 0x00#8 →
        ∃ t, step s = .next t ∧ t.Completed .unexpectedZero (s.rd + 1) 0 0) ∧
      (s.src.read s.rd = some marker → s.prev ≠ 0x00#8 → ∃ t, step s = .next t ∧ t.Completed .ok (s.rd + 1) s.wr 0) ∧
      (∀ c, s.src.read s.rd = some c → c ≠ marker → s.prev ≠ 0x00#8 → s.prev ≠ maxOffset →
        ∃ t, step s = .next t ∧ t.Completed .writeOverflow 0 0 0))

/-- What the two offset classes leave unchanged: they store at most the restored zero, at `WR` (R164, R213). -/
def Obligations.DecOffsetFrame : Prop :=
  ∀ (i : Instr), (i = .decFullOffset ∨ ∃ c, i = .decShortOffset c) → ∀ s t : State, exec i s = .next t →
    s.SameOperands t ∧ t.host = s.host ∧ t.op = s.op ∧ t.run = s.run ∧ t.ofsPtr = s.ofsPtr ∧ t.pend = s.pend ∧ t.rd = s.rd + 1 ∧
    (t.phase ≠ .idle →
      s.SameResults t ∧ t.written = s.written ∧ t.freeCount = s.freeCount ∧
        s.DstSameOutside (fun a => s.prev ≠ 0x00#8 ∧ s.prev ≠ maxOffset ∧ a = s.wr) t) ∧
    (t.phase = .idle →
      t.written = { s.written with results := true } ∧ t.wr = s.wr ∧ t.prev = s.prev ∧ t.rem = s.rem ∧
        t.freeCount = s.freeCount + s.dstCap ∧ s.DstSameOutside (fun a => a < s.dstCap) t)

/-- What DEC.DATA leaves unchanged: it stores at `WR` (R165, R213). -/
def Obligations.DecDataFrame : Prop :=
  ∀ (b : Byte) (s t : State), exec (.decData b) s = .next t →
    s.SameOperands t ∧ t.host = s.host ∧ t.op = s.op ∧ t.run = s.run ∧ t.ofsPtr = s.ofsPtr ∧ t.pend = s.pend ∧ t.prev = s.prev ∧
    t.rd = s.rd + 1 ∧
    (t.phase ≠ .idle →
      s.SameResults t ∧ t.written = s.written ∧ t.freeCount = s.freeCount ∧ s.DstSameOutside (fun a => a = s.wr) t) ∧
    (t.phase = .idle →
      t.written = { s.written with results := true } ∧ t.wr = s.wr ∧ t.rem = s.rem ∧
        t.freeCount = s.freeCount + s.dstCap ∧ s.DstSameOutside (fun a => a < s.dstCap) t)

/-- What the three classes that always complete leave unchanged: only `RD` of the datapath moves; DEC.TERMINATOR leaves all of
`DST`, the two failures leave `DST` at and above `DST_CAP` (R163, R165, R213). -/
def Obligations.DecCompletionFrame : Prop :=
  ∀ i : Instr, i = .decZeroFirst ∨ i = .decTerminator ∨ i = .decZeroInRun → ∀ s t : State, exec i s = .next t →
    s.SameOperands t ∧ t.host = s.host ∧ t.op = s.op ∧ s.SameDatapath { t with rd := s.rd } ∧ t.rd = s.rd + 1 ∧ t.phase = .idle ∧
    t.written = { s.written with results := true } ∧
    (i = .decTerminator → t.dst = s.dst ∧ t.freeCount = s.freeCount) ∧
    (i ≠ .decTerminator →
      t.freeCount = s.freeCount + s.dstCap ∧ s.DstSameOutside (fun a => a < s.dstCap) t)

/-- What the issue steps of ENCODE and DECODE leave unchanged: both buffers' readings (unless ENCODE fails at once, and then
`DST_CAP` is 0), the operands, the registers of the other unit, and, when the command runs on, the result registers
(R124, R161). -/
def Obligations.IssueStepFrame : Prop :=
  (∀ s t : State, exec .encodeCmd s = .next t →
    s.SameOperands t ∧ t.host = s.host ∧ t.op = 0x03#8 ∧ t.rem = s.rem ∧ t.prev = s.prev ∧ t.freeCount = s.freeCount ∧
      s.DstSameOutside (fun _ => False) t ∧
      (t.phase ≠ .idle → s.SameResults t ∧ t.written = { s.written with op := true }) ∧
      (t.phase = .idle → s.SameDatapath t ∧ t.written = { s.written with op := true, results := true })) ∧
  (∀ s t : State, exec .decodeCmd s = .next t →
    s.SameOperands t ∧ t.host = s.host ∧ t.op = 0x04#8 ∧ t.run = s.run ∧ t.ofsPtr = s.ofsPtr ∧ t.pend = s.pend ∧
      t.freeCount = s.freeCount ∧ t.dst = s.dst ∧ s.SameResults t ∧ t.written = { s.written with op := true })

/-! Completion, failures and the engine as a whole. -/

/-- R210, R212: an engine step either leaves the command running and the result registers alone, or completes it with one
status, `RESULT = 0`, `PRODUCED = 0` unless OK, and `CONSUMED` as R212's table has it: 0 for every ENCODE and for
READ_OVERFLOW and WRITE_OVERFLOW, else the bytes read. -/
def Obligations.EngineStepCompletesAtMostOnce : Prop :=
  ∀ s t : State, s.phase ≠ .idle → s.resetIn = none → step s = .next t →
    (t.phase ≠ .idle ∧ s.SameResults t ∧ t.written = s.written) ∨
    (t.phase = .idle ∧ t.written.results = true ∧ t.result = 0 ∧
      (t.status = .ok → t.produced = t.wr) ∧ (t.status ≠ .ok → t.produced = 0) ∧
      (s.phase = .encScan ∨ s.phase = .encFinish → t.consumed = 0 ∧ (t.status = .ok ∨ t.status = .writeOverflow)) ∧
      (t.status = .readOverflow ∨ t.status = .writeOverflow → t.consumed = 0) ∧
      (s.phase = .decAwaitOffset ∨ s.phase = .decCopyRun →
        t.status = .ok ∨ t.status = .unexpectedZero → t.consumed = t.rd))

/-- R213: when a step of the engine completes a command with a status other than OK, every byte of `DST[0:DST_CAP]` is a free
draw, and no byte outside it has changed. -/
def Obligations.FailureLeavesDstUnspecified : Prop :=
  ∀ s t : State, s.Inv → s.phase ≠ .idle → s.resetIn = none → step s = .next t → t.phase = .idle → t.status ≠ .ok →
    t.src = s.src ∧ (∀ a, a < s.dstCap → t.dst.read a = some (Config.freeByte (s.freeCount + a))) ∧
      (∀ a, s.dstCap ≤ a → t.dst.read a = s.dst.read a)

/-- R53, R61, R252: a step of the engine never writes `SRC`, the command registers or the parameter, and the host's own move
beside it is `waitHost` (R67; log entry 8). -/
def Obligations.EngineStepKeepsOperands : Prop :=
  ∀ s t : State, s.phase ≠ .idle → s.resetIn = none → step s = .next t →
    s.SameOperands t ∧ t.op = s.op ∧ t.host = s.waitHost

/-- R52, R177: whatever the status, no step of the engine writes `DST` at or above `DST_CAP`. -/
def Obligations.EngineWritesInsideCapacity : Prop :=
  ∀ s t : State, s.Inv → s.phase ≠ .idle → s.resetIn = none → step s = .next t →
    ∀ a, s.dstCap ≤ a → t.dst.read a = s.dst.read a

/-- R227: an IDLE block whose host has no further statement takes no step. -/
def Obligations.IdleBlockTakesNoStep : Prop :=
  ∀ s : State, s.phase = .idle → s.resetIn = none → s.host.prog.length ≤ s.host.pos → step s = .next s

/-! Encodings and steps. -/

/-- R84: the status codes. -/
def Obligations.StatusCodesOfTheTable : Prop :=
  Status.code .ok = 0#2 ∧ Status.code .writeOverflow = 1#2 ∧ Status.code .readOverflow = 2#2 ∧
    Status.code .unexpectedZero = 3#2 ∧ ∀ c : BitVec 2, ∃ st : Status, st.code = c

/-- R76, R80: words of the table, each in its context, decode to the instructions they stand for. -/
def Obligations.TableWordsDecode : Prop :=
  decode .command [0x01#8] = .instr .maxEnc [] ∧ decode .command [0x02#8] = .instr .maxDec [] ∧
    decode .command [0x03#8] = .instr .encodeCmd [] ∧ decode .command [0x04#8] = .instr .decodeCmd [] ∧
    decode .encScan [0x00#8] = .instr .encMarker [] ∧ decode .encScan [0x11#8] = .instr (.encData 0x11#8) [] ∧
    decode .decAwaitFirst [0x00#8] = .instr .decZeroFirst [] ∧ decode .decAwaitNext [0x00#8] = .instr .decTerminator [] ∧
    decode .decAwaitFirst [0x01#8] = .instr (.decShortOffset 0x01#8) [] ∧
    decode .decAwaitNext [0xFE#8] = .instr (.decShortOffset 0xFE#8) [] ∧
    decode .decAwaitNext [0xFF#8] = .instr .decFullOffset [] ∧ decode .decCopyRun [0x00#8] = .instr .decZeroInRun [] ∧
    decode .decCopyRun [0xFF#8] = .instr (.decData 0xFF#8) []

/-- R76: the table's eight rows, each with its byte values, in the context that `PHASE` and `PREV` give; and in each wire context
every byte value falls in exactly one class, whose byte it is. -/
def Obligations.WireClassesAreTotalAndDisjoint : Prop :=
  (∀ b : Byte, b ≠ marker →
    decode .encScan [marker] = .instr .encMarker [] ∧ decode .encScan [b] = .instr (.encData b) [] ∧
    decode .decAwaitFirst [marker] = .instr .decZeroFirst [] ∧ decode .decAwaitNext [marker] = .instr .decTerminator [] ∧
    (∀ ctx : Context, ctx = .decAwaitFirst ∨ ctx = .decAwaitNext →
      (b ≠ maxOffset → decode ctx [b] = .instr (.decShortOffset b) []) ∧
        decode ctx [maxOffset] = .instr .decFullOffset []) ∧
    decode .decCopyRun [marker] = .instr .decZeroInRun [] ∧ decode .decCopyRun [b] = .instr (.decData b) []) ∧
  (∀ s : State,
    (s.phase = .encScan → s.context = some .encScan) ∧
    (s.phase = .decAwaitOffset → s.prev = 0x00#8 → s.context = some .decAwaitFirst) ∧
    (s.phase = .decAwaitOffset → s.prev ≠ 0x00#8 → s.context = some .decAwaitNext) ∧
    (s.phase = .decCopyRun → s.context = some .decCopyRun)) ∧
  (∀ (ctx : Context) (b : Byte) (rest : List Byte), ctx ≠ .command →
    ∃ i, decode ctx (b :: rest) = .instr i rest ∧ i.wellFormed = true ∧ ctx ∈ contexts i ∧ encode i = [b] ∧
      ∀ j : Instr, j.wellFormed = true → ctx ∈ contexts j → encode j = [b] → j = i)

/-- Every well-formed instruction, in every context it may stand in, decodes from its own bytes, whatever follows them. -/
def Obligations.DecodeOfEncodeIsTheInstruction : Prop :=
  ∀ (i : Instr) (ctx : Context) (rest : List Byte), i.wellFormed = true → ctx ∈ contexts i →
    decode ctx (encode i ++ rest) = .instr i rest

/-- R82: a host write to `OP` of 0x00 or of 0x05 to 0xFF is refused. The second clause, that a command's issue while `BUSY = 1` is
refused, is the model's reading (log entry 13): R82 gives such a write no meaning, and R67 leaves open whether a model gives it
no step or refuses it. -/
def Obligations.ReservedOpAndBusyIssueRefused : Prop :=
  (∀ (s : State) (v : HostVal) (b : Byte), s.phase = .idle → s.resetIn = none →
    s.host.prog[s.host.pos]? = some (.write .op v) → s.hostVal v = some b.toNat → b = 0x00#8 ∨ 5 ≤ b.toNat →
      step s = .refused (.reservedOp b)) ∧
  (∀ (i : Instr) (s : State), Context.command ∈ contexts i → s.phase ≠ .idle → exec i s = .refused .commandWhileBusy)

/-- A step runs the decoded instruction. The host's write of `b` to `OP` (R81): the step is `exec` of the command, on the state
whose host stands at its next statement. A byte at `SRC[RD]` (R76): the step is `exec` of its class, on the state whose host
has made its move beside the engine. A reset that arrives is the step (R240, R243), and one still counting down changes nothing
else. That the host is a program in State (log entry 8), that its move beside the engine comes with the engine's step (log
entry 8) and that the reset is a countdown (log entry 7) are the model's choices. -/
def Obligations.StepRunsDecodedInstruction : Prop :=
  (∀ (s : State) (v : HostVal) (b : Byte) (i : Instr), s.phase = .idle → s.resetIn = none →
    s.host.prog[s.host.pos]? = some (.write .op v) → s.hostVal v = some b.toNat → decode .command [b] = .instr i [] →
      step s = exec i { s with host := { s.host with pos := s.host.pos + 1 } }) ∧
  (∀ (s : State) (ctx : Context) (b : Byte) (i : Instr), s.resetIn = none → s.context = some ctx → s.rd < s.srcLen →
    s.src.read s.rd = some b → decode ctx [b] = .instr i [] → step s = exec i s.pollHost) ∧
  (∀ s : State, s.resetIn = some 0 → step s = .next s.hardReset) ∧
  (∀ (s : State) (n : Nat), s.resetIn = some (n + 1) → step s = agentStep { s with resetIn := some n }) ∧
  (∀ s : State, s.resetIn = none → step s = agentStep s)

/-! The host. -/

/-- R20, U15, R85: a host read gives the register's value once it has been written, and faults before; and so do the reads of
`RESULT` as an operand of a host write or of `DROP`, and of `STATUS` in a branch. -/
def Obligations.HostReadOfUnwrittenRegisterFaults : Prop :=
  ∀ s : State, s.phase = .idle → s.resetIn = none →
    (∀ r, s.host.prog[s.host.pos]? = some (.read r) →
      (s.isWritten r = false → step s = .fault (.unwrittenRegister r)) ∧
      (s.isWritten r = true →
        step s = .next { s with host := { s.host with pos := s.host.pos + 1, lastRead := s.regValue r } })) ∧
    (s.written.results = true → s.hostVal .result = some s.result) ∧
    (s.written.results = false →
      (∀ r, s.host.prog[s.host.pos]? = some (.write r .result) → step s = .fault (.unwrittenRegister .result)) ∧
      (s.host.prog[s.host.pos]? = some (.drop .result) → step s = .fault (.unwrittenRegister .result)) ∧
      (∀ st l, s.host.prog[s.host.pos]? = some (.ifStatus st l) → step s = .fault (.unwrittenRegister .status)))

/-- R83: a command record is the host writes `SRC_LEN <- n`, `DST_CAP <- k`, `ARG <- a`, then `OP <- code`, which issues the
command with those operands; each operand a number or `RESULT`, its value at that point (R85). -/
def Obligations.CommandRecordIssuesCommand : Prop :=
  ∀ (s : State) (code : Byte) (vn vk va : HostVal) (n k a : Nat) (rest : List HostStmt) (i : Instr),
    s.phase = .idle → s.resetIn = none →
    s.host.prog.drop s.host.pos = commandRecord code vn vk va ++ rest →
    s.hostVal vn = some n → s.hostVal vk = some k → s.hostVal va = some a →
    n ≤ sizeMax s.sizeBits → k ≤ sizeMax s.sizeBits → a ≤ sizeMax s.sizeBits → decode .command [code] = .instr i [] →
    ∃ s₁ s₂ s₃ : State, step s = .next s₁ ∧ step s₁ = .next s₂ ∧ step s₂ = .next s₃ ∧
      s₃ =
        { s with
          srcLen := n, dstCap := k, arg := a
          written := { s.written with srcLen := true, dstCap := true, arg := true }
          host := { s.host with pos := s.host.pos + 3 } } ∧
      step s₃ = exec i { s₃ with host := { s₃.host with pos := s.host.pos + 4 } }

/-- R85: what `LOAD`, `MOVE`, `DROP` and `APPEND` do to `SRC`, byte by byte, and to the source stream; `DST` and the block's
registers stay. The stream's length is the model's reading, and after a drop past its end any length (log entry 9). A `MOVE`
of bytes that `DST` does not all hold faults at the first index that is absent, which is the model's choice (log entry 5). -/
def Obligations.HostBufferMoves : Prop :=
  ∀ s : State, s.phase = .idle → s.resetIn = none →
    (∀ bs, s.host.prog[s.host.pos]? = some (.load bs) →
      ∃ t, step s = .next t ∧ t = { s with src := t.src, host := t.host } ∧ t.host.streamLen = bs.length ∧
        ∀ a, t.src.read a = if a < bs.length then bs[a]? else s.src.read a) ∧
    (∀ i j bs, s.host.prog[s.host.pos]? = some (.move i j) → s.dst.bytesAt i (j - i) = some bs →
      ∃ t, step s = .next t ∧ t = { s with src := t.src, host := t.host } ∧ t.host.streamLen = j - i ∧
        ∀ a, t.src.read a = if a < j - i then s.dst.read (i + a) else s.src.read a) ∧
    (∀ i j a, s.host.prog[s.host.pos]? = some (.move i j) → i ≤ a → a < j → s.dst.read a = none →
      (∀ b, i ≤ b → b < a → (s.dst.read b).isSome) → step s = .fault (.destinationByteAbsent a)) ∧
    (∀ v k, s.host.prog[s.host.pos]? = some (.drop v) → s.hostVal v = some k →
      ∃ t, step s = .next t ∧ t = { s with src := t.src, host := t.host, freeCount := t.freeCount } ∧
        (k ≤ s.host.streamLen → t.host.streamLen = s.host.streamLen - k ∧ t.freeCount = s.freeCount) ∧
        (s.host.streamLen < k →
          t.host.streamLen = Config.freeLength s.freeCount ∧ t.freeCount = s.freeCount + 1) ∧
        ∀ a, t.src.read a = s.src.read (a + k)) ∧
    (∀ bs, s.host.prog[s.host.pos]? = some (.append bs) →
      ∃ t, step s = .next t ∧ t = { s with src := t.src, host := t.host } ∧
        t.host.streamLen = s.host.streamLen + bs.length ∧
        ∀ a, t.src.read a =
          if s.host.streamLen ≤ a ∧ a < s.host.streamLen + bs.length then bs[a - s.host.streamLen]? else s.src.read a)

/-- R50, R67: while `BUSY = 0` the host writes any bytes of either buffer and reads any byte that a buffer holds; the rest of the
block stays. A read where a buffer holds no byte faults (log entry 5). -/
def Obligations.HostTouchesBuffers : Prop :=
  ∀ s : State, s.phase = .idle → s.resetIn = none →
    (∀ i bs, s.host.prog[s.host.pos]? = some (.store .src i bs) →
      ∃ t, step s = .next t ∧ t = { s with src := t.src, host := { s.host with pos := s.host.pos + 1 } } ∧
        ∀ a, t.src.read a = if i ≤ a ∧ a < i + bs.length then bs[a - i]? else s.src.read a) ∧
    (∀ i bs, s.host.prog[s.host.pos]? = some (.store .dst i bs) →
      ∃ t, step s = .next t ∧ t = { s with dst := t.dst, host := { s.host with pos := s.host.pos + 1 } } ∧
        ∀ a, t.dst.read a = if i ≤ a ∧ a < i + bs.length then bs[a - i]? else s.dst.read a) ∧
    (∀ i, s.host.prog[s.host.pos]? = some (.fetch .src i) →
      (s.src.read i = none → step s = .fault (.sourceByteAbsent i)) ∧
      (∀ b, s.src.read i = some b →
        step s = .next { s with host := { s.host with pos := s.host.pos + 1, lastRead := b.toNat } })) ∧
    (∀ i, s.host.prog[s.host.pos]? = some (.fetch .dst i) →
      (s.dst.read i = none → step s = .fault (.destinationByteAbsent i)) ∧
      (∀ b, s.dst.read i = some b →
        step s = .next { s with host := { s.host with pos := s.host.pos + 1, lastRead := b.toNat } }))

/-- R61, R67 "wait": while `BUSY = 1` the host reads `BUSY`, as 1, or sends nothing, and every other statement of it waits. That such
a read comes beside a step of the engine is the model's choice (log entry 8). -/
def Obligations.HostMovesWhileBusy : Prop :=
  ∀ s t : State, s.phase ≠ .idle → s.resetIn = none → step s = .next t →
    (s.host.prog[s.host.pos]? = some (.read .busy) →
      t.host = { s.host with pos := s.host.pos + 1, lastRead := 1 }) ∧
    (s.host.prog[s.host.pos]? = some .wait → t.host = { s.host with pos := s.host.pos + 1 }) ∧
    (s.host.prog[s.host.pos]? ≠ some (.read .busy) → s.host.prog[s.host.pos]? ≠ some .wait → t.host = s.host)

/-- R66, R225: instances share no state: a step of one leaves every other as it was, and steps of two instances commute. -/
def Obligations.InstancesAreIndependent : Prop :=
  ∀ (j k : Nat) (bs bj bk : List State), j ≠ k → stepInstance j bs = .next bj → stepInstance k bs = .next bk →
    (∀ m, m ≠ j → bj[m]? = bs[m]?) ∧ ∃ b, stepInstance k bj = .next b ∧ stepInstance j bk = .next b

/-! Whole commands. -/

/-- R123, R132: run to its completion, ENCODE of `x` puts the canonical packet `E` of `x` at `DST[0:|E|]`, reports OK and `|E|`,
and writes nothing else, when `|E| <= DST_CAP`; else it reports WRITE_OVERFLOW and touches nothing at or above `DST_CAP`. -/
def Obligations.EncodeMeetsItsContract : Prop :=
  ∀ (s : State) (x : List Byte), s.Ready x →
    ∃ t, issueAndRun .encodeCmd (s.srcLen + 2) s = .next t ∧ s.SameOperands t ∧
      ((cobsEncodeBytes x).length ≤ s.dstCap →
        t.Completed .ok 0 (cobsEncodeBytes x).length 0 ∧
          t.dst.bytesAt 0 (cobsEncodeBytes x).length = some (cobsEncodeBytes x) ∧
          s.DstSameOutside (fun a => a < (cobsEncodeBytes x).length) t) ∧
      (s.dstCap < (cobsEncodeBytes x).length →
        t.Completed .writeOverflow 0 0 0 ∧ s.DstSameOutside (fun a => a < s.dstCap) t)

/-- R167, R180: run to its completion, DECODE reports the status, `CONSUMED` and `PRODUCED` of the whole-operation function; on
OK the bytes written are its bytes and no others are touched; on a failure nothing at or above `DST_CAP` is touched. -/
def Obligations.DecodeMeetsItsFunction : Prop :=
  ∀ (s : State) (x : List Byte), s.Ready x →
    ∃ t, issueAndRun .decodeCmd (s.srcLen + 1) s = .next t ∧ s.SameOperands t ∧
      t.Completed (cobsDecode x s.dstCap).status (cobsDecode x s.dstCap).consumed (cobsDecode x s.dstCap).produced 0 ∧
      ((cobsDecode x s.dstCap).status = .ok →
        t.dst.bytesAt 0 (cobsDecode x s.dstCap).produced = some (cobsDecode x s.dstCap).written ∧
          s.DstSameOutside (fun a => a < (cobsDecode x s.dstCap).produced) t) ∧
      ((cobsDecode x s.dstCap).status ≠ .ok → s.DstSameOutside (fun a => a < s.dstCap) t)

/-- R260: MAXENC and MAXDEC complete in 1 step, ENCODE in at most `SRC_LEN + 3` and DECODE in at most `SRC_LEN + 2` (the issue step
counted), and every step while `BUSY = 1` increases `RD` or changes `PHASE`. -/
def Obligations.CommandsCompleteWithinTheirBounds : Prop :=
  (∀ (i : Instr) (s t : State), i = .maxEnc ∨ i = .maxDec → exec i s = .next t → t.busy = false) ∧
  (∀ (s : State) (x : List Byte), s.Ready x →
    (∃ t, issueAndRun .encodeCmd (s.srcLen + 2) s = .next t ∧ t.busy = false) ∧
    (∃ t, issueAndRun .decodeCmd (s.srcLen + 1) s = .next t ∧ t.busy = false)) ∧
  (∀ s t : State, s.phase ≠ .idle → s.resetIn = none → step s = .next t → s.rd < t.rd ∨ t.phase ≠ s.phase)

/-- R241: the outcome of ENCODE and DECODE depends only on their operands: two IDLE blocks with the same `SRC[0:SRC_LEN]`, `SRC_LEN`
and `DST_CAP`, and any other contents and past, end with the same result registers, and on OK with the same bytes in
`DST[0:PRODUCED]`. The estimator's part of R241 is `EstimatorFrame`. -/
def Obligations.OutcomeDependsOnlyOnOperands : Prop :=
  ∀ (i : Instr) (s s' : State) (x : List Byte), i = .encodeCmd ∨ i = .decodeCmd → s.Ready x → s'.Ready x →
    s.srcLen = s'.srcLen → s.dstCap = s'.dstCap →
    ∃ t t', issueAndRun i (s.srcLen + 2) s = .next t ∧ issueAndRun i (s.srcLen + 2) s' = .next t' ∧ t.SameResults t' ∧
      (t.status = .ok → t.dst.bytesAt 0 t.produced = t'.dst.bytesAt 0 t.produced)

/-! The encoding and decoding functions. -/

/-- R122: the canonical packet `E` of `x`, of `n` bytes with `z` zeros: it matches the packet grammar and stands for `x`; it holds
0x00 only at its last index; `|E| = (n - z) + |runs(x)| + 1`; `|E| <= max_encoded_length(n)`, with equality when
`z = 0`; `|E| >= 2`. -/
def Obligations.CanonicalPacketProperties : Prop :=
  ∀ x : List Byte,
    (IsRunList (runsOf x) ∧ cobsEncodeBytes x = packetOf (runsOf x) ∧ decodedOf (runsOf x) = x) ∧
    (∃ p, cobsEncodeBytes x = p ++ [marker] ∧ marker ∉ p) ∧
    (cobsEncodeBytes x).length = (x.length - x.count marker) + (runsOf x).length + 1 ∧
    (cobsEncodeBytes x).length ≤ maxEncodedLength x.length ∧
    (x.count marker = 0 → (cobsEncodeBytes x).length = maxEncodedLength x.length) ∧
    2 ≤ (cobsEncodeBytes x).length

/-- R101: an ENCODE with `DST_CAP = max_encoded_length(SRC_LEN)` never reports WRITE_OVERFLOW, and one of nonzero bytes with one
byte less always does. -/
def Obligations.EncodeCapacityIsExact : Prop :=
  ∀ (s : State) (x : List Byte), s.Ready x →
    (s.dstCap = maxEncodedLength s.srcLen →
      ∃ t, issueAndRun .encodeCmd (s.srcLen + 2) s = .next t ∧ t.busy = false ∧ t.status = .ok) ∧
    (s.dstCap = maxEncodedLength s.srcLen - 1 → marker ∉ x →
      ∃ t, issueAndRun .encodeCmd (s.srcLen + 2) s = .next t ∧ t.busy = false ∧ t.status = .writeOverflow)

/-- R131: the packets at the 254 and 255 boundaries, for any nonzero byte `b`. -/
def Obligations.BoundaryPackets : Prop :=
  ∀ b : Byte, b ≠ marker →
    cobsEncodeBytes (List.replicate 254 b) = 0xFF#8 :: List.replicate 254 b ++ [0x00#8] ∧
    cobsEncodeBytes (List.replicate 254 b ++ [marker]) = 0xFF#8 :: List.replicate 254 b ++ [0x01#8, 0x01#8, 0x00#8] ∧
    cobsEncodeBytes (List.replicate 253 b) = 0xFE#8 :: List.replicate 253 b ++ [0x00#8] ∧
    cobsEncodeBytes (List.replicate 255 b) = 0xFF#8 :: List.replicate 254 b ++ [0x02#8, b, 0x00#8] ∧
    cobsEncodeBytes (List.replicate 508 b) =
      0xFF#8 :: List.replicate 254 b ++ 0xFF#8 :: List.replicate 254 b ++ [0x00#8]

/-- R133: ENCODE of the empty input gives `[0x01, 0x00]` with 2 bytes of room or more, and WRITE_OVERFLOW with 0 or 1. -/
def Obligations.EmptyInputEncodesToTwoBytes : Prop :=
  ∀ s : State, s.phase = .idle → s.resetIn = none → s.written.srcLen = true → s.written.dstCap = true → s.srcLen = 0 →
    (2 ≤ s.dstCap →
      ∃ t, issueAndRun .encodeCmd 2 s = .next t ∧ t.Completed .ok 0 2 0 ∧ t.dst.bytesAt 0 2 = some [0x01#8, 0x00#8]) ∧
    (s.dstCap ≤ 1 → ∃ t, issueAndRun .encodeCmd 2 s = .next t ∧ t.Completed .writeOverflow 0 0 0)

/-- R178, R134 on the functions: DECODE of the canonical packet of `x` gives back `x` with `|x|` bytes of room or more, and
WRITE_OVERFLOW with less. -/
def Obligations.DecodeOfEncodeIsTheInput : Prop :=
  ∀ (x : List Byte) (cap : Nat),
    (x.length ≤ cap →
      cobsDecode (cobsEncodeBytes x) cap = ⟨.ok, (cobsEncodeBytes x).length, x.length, x⟩) ∧
    (cap < x.length → (cobsDecode (cobsEncodeBytes x) cap).status = .writeOverflow)

/-- R134 on the machine: ENCODE of `x` into `max_encoded_length(|x|)` bytes or more gives OK with a packet, and any block that then
has that packet as its source, and `|x|` bytes of room or more, decodes it to `x`, all of it consumed. -/
def Obligations.MachineRoundTrip : Prop :=
  ∀ (s : State) (x : List Byte), s.Ready x → maxEncodedLength x.length ≤ s.dstCap →
    ∃ (t : State) (e : List Byte), issueAndRun .encodeCmd (s.srcLen + 2) s = .next t ∧ t.busy = false ∧ t.status = .ok ∧
      t.dst.bytesAt 0 t.produced = some e ∧
      ∀ u : State, u.Ready e → u.srcLen = e.length → x.length ≤ u.dstCap →
        ∃ v, issueAndRun .decodeCmd (u.srcLen + 1) u = .next v ∧ v.Completed .ok e.length x.length 0 ∧
          v.dst.bytesAt 0 x.length = some x

/-- R168, R72, R73: a source that starts with any packet, canonical or not, decodes OK to what the packet stands for, whatever
follows it, when that fits; and every OK outcome is of this form. -/
def Obligations.DecodeAcceptsExactlyPackets : Prop :=
  (∀ (rs : List (List Byte)) (rest : List Byte) (cap : Nat), IsRunList rs → (decodedOf rs).length ≤ cap →
    cobsDecode (packetOf rs ++ rest) cap = ⟨.ok, (packetOf rs).length, (decodedOf rs).length, decodedOf rs⟩) ∧
  (∀ (src : List Byte) (cap : Nat), (cobsDecode src cap).status = .ok →
    ∃ rs, IsRunList rs ∧ packetOf rs = src.take (cobsDecode src cap).consumed ∧
      (packetOf rs).length = (cobsDecode src cap).consumed ∧ (cobsDecode src cap).written = decodedOf rs ∧
      (cobsDecode src cap).produced = (decodedOf rs).length ∧ (decodedOf rs).length ≤ cap)

/-- R171, R169, R172: the capacity decides between the outcome with unlimited room (`|SRC|` bytes are always enough) and
WRITE_OVERFLOW: the outcome is the former when all that is written there fits, and the latter when it does not. -/
def Obligations.CapacityDecidesTheOutcome : Prop :=
  ∀ (src : List Byte) (cap : Nat),
    ((cobsDecode src src.length).written.length ≤ cap → cobsDecode src cap = cobsDecode src src.length) ∧
    (cap < (cobsDecode src src.length).written.length →
      (cobsDecode src cap).status = .writeOverflow ∧ (cobsDecode src cap).consumed = 0 ∧
        (cobsDecode src cap).produced = 0)

/-- R169: with enough room, READ_OVERFLOW occurs exactly when the source is a proper beginning of some packet. -/
def Obligations.ReadOverflowIsAProperBeginning : Prop :=
  ∀ (src : List Byte) (cap : Nat), src.length ≤ cap →
    ((cobsDecode src cap).status = .readOverflow ↔
      ∃ (rs : List (List Byte)) (ext : List Byte), IsRunList rs ∧ ext ≠ [] ∧ src ++ ext = packetOf rs)

/-- R104: `max_decoded_length(SRC_LEN)` bytes are enough for every DECODE that completes OK with any room, and the bound is tight:
the one-run packet of `m` bytes, 3 <= m <= 256, needs all `m - 2`. -/
def Obligations.MaxDecodedLengthSuffices : Prop :=
  (∀ (src : List Byte) (big cap : Nat), (cobsDecode src big).status = .ok → maxDecodedLength src.length ≤ cap →
    cobsDecode src cap = cobsDecode src big) ∧
  (∀ m, 3 ≤ m → m ≤ 256 →
    (cobsDecode (BitVec.ofNat 8 (m - 1) :: List.replicate (m - 2) 0x11#8 ++ [0x00#8]) (m - 2)).status = .ok ∧
    (cobsDecode (BitVec.ofNat 8 (m - 1) :: List.replicate (m - 2) 0x11#8 ++ [0x00#8]) (m - 3)).status = .writeOverflow)

/-- R170, R175, R176: on UNEXPECTED_ZERO, `CONSUMED = k` points just past the offending zero `SRC[k-1]`; a first byte of 0x00 gives
`k = 1`; and on OK and UNEXPECTED_ZERO the bytes of `SRC` at and after `CONSUMED` do not matter. -/
def Obligations.ConsumedMarksTheBytesThatMatter : Prop :=
  ∀ (src : List Byte) (cap : Nat),
    ((cobsDecode src cap).status = .unexpectedZero →
      1 ≤ (cobsDecode src cap).consumed ∧ src[(cobsDecode src cap).consumed - 1]? = some marker) ∧
    (src[0]? = some marker → cobsDecode src cap = ⟨.unexpectedZero, 1, 0, []⟩) ∧
    ((cobsDecode src cap).status = .ok ∨ (cobsDecode src cap).status = .unexpectedZero →
      ∀ rest, cobsDecode (src.take (cobsDecode src cap).consumed ++ rest) cap = cobsDecode src cap)
end

