-- ==== Sys2Proof/Laws/Memory.lean ====
section
/-! SUPPORT. What each buffer operation can do: reads after writes, and the canonical form kept by every operation. -/

namespace Sys2Proof.Machine

open Sys2Proof

@[simp] theorem Memory.read_nil (i : Nat) : Memory.read [] i = none := rfl

theorem Memory.read_cons (a : Nat) (v : Byte) (t : Memory) (i : Nat) :
    Memory.read ((a, v) :: t) i = if a = i then some v else Memory.read t i := rfl

@[simp] theorem Memory.read_write_same (m : Memory) (i : Nat) (v : Byte) : (m.write i v).read i = some v := by
  induction m with
  | nil => simp [Memory.write, Memory.read]
  | cons c t ih =>
    obtain ⟨a, w⟩ := c
    simp only [Memory.write]
    split_ifs with h₁ h₂
    · simp [Memory.read]
    · simp [Memory.read]
    · simp [Memory.read, Ne.symm h₂, ih]

theorem Memory.read_write_other (m : Memory) {i j : Nat} (v : Byte) (h : j ≠ i) : (m.write i v).read j = m.read j := by
  induction m with
  | nil => simp [Memory.write, Memory.read, Ne.symm h]
  | cons c t ih =>
    obtain ⟨a, w⟩ := c
    simp only [Memory.write]
    split_ifs with h₁ h₂
    · simp [Memory.read, Ne.symm h]
    · subst h₂; simp [Memory.read, Ne.symm h]
    · simp [Memory.read, ih]

/-- A read after a write, in one equation. -/
theorem Memory.read_write (m : Memory) (i j : Nat) (v : Byte) :
    (m.write i v).read j = if j = i then some v else m.read j := by
  split_ifs with h
  · subst h; exact Memory.read_write_same m j v
  · exact Memory.read_write_other m v h

/-- A read after a list of writes: the list's byte inside it, the old byte outside. -/
theorem Memory.read_writeList (m : Memory) (i j : Nat) (vs : List Byte) :
    (m.writeList i vs).read j = if i ≤ j ∧ j < i + vs.length then vs[j - i]? else m.read j := by
  induction vs generalizing m i with
  | nil => simp only [Memory.writeList, List.length_nil]; rw [if_neg (by omega)]
  | cons v vs ih =>
    simp only [Memory.writeList, ih, Memory.read_write, List.length_cons]
    rcases Nat.lt_trichotomy j i with h | h | h
    · rw [if_neg (by omega), if_neg (by omega), if_neg (by omega)]
    · subst h; rw [if_neg (by omega), if_pos rfl, if_pos (by omega)]; simp
    · by_cases h' : j < i + 1 + vs.length
      · rw [if_pos (by omega), if_pos (by omega)]
        obtain ⟨k, hk⟩ : ∃ k, j - i = k + 1 := ⟨j - i - 1, by omega⟩
        rw [hk, show j - (i + 1) = k by omega]; simp
      · rw [if_neg (by omega), if_neg (by omega), if_neg (by omega)]

theorem Memory.wfFrom_mono {m : Memory} {lo lo' : Nat} (h : lo' ≤ lo) (hm : Memory.wfFrom lo m = true) :
    Memory.wfFrom lo' m = true := by
  cases m with
  | nil => rfl
  | cons c t =>
    simp only [Memory.wfFrom, Bool.and_eq_true, decide_eq_true_eq] at hm ⊢
    exact ⟨by omega, hm.2⟩

theorem Memory.wfFrom_write {m : Memory} {lo i : Nat} (v : Byte) (hi : lo ≤ i) (hm : Memory.wfFrom lo m = true) :
    Memory.wfFrom lo (m.write i v) = true := by
  induction m generalizing lo with
  | nil => simp [Memory.write, Memory.wfFrom, hi]
  | cons c t ih =>
    obtain ⟨a, w⟩ := c
    simp only [Memory.wfFrom, Bool.and_eq_true, decide_eq_true_eq] at hm
    simp only [Memory.write]
    split_ifs with h₁ h₂
    · simp [Memory.wfFrom, hi, hm.2, Nat.succ_le_of_lt h₁]
    · subst h₂; simp [Memory.wfFrom, hi, hm.2]
    · simp [Memory.wfFrom, hm.1, ih (show a + 1 ≤ i by omega) hm.2]

/-- A write keeps the canonical form. -/
theorem Memory.wf_write {m : Memory} (i : Nat) (v : Byte) (hm : m.wf = true) : (m.write i v).wf = true :=
  Memory.wfFrom_write v (Nat.zero_le i) hm

/-- A list of writes keeps the canonical form. -/
theorem Memory.wf_writeList {m : Memory} (i : Nat) (vs : List Byte) (hm : m.wf = true) : (m.writeList i vs).wf = true := by
  induction vs generalizing m i with
  | nil => exact hm
  | cons v vs ih => exact ih (i + 1) (Memory.wf_write i v hm)

theorem Memory.wfFrom_dropBelow {m : Memory} {lo : Nat} (n : Nat) (hm : Memory.wfFrom lo m = true) :
    Memory.wfFrom (max lo n) (m.dropBelow n) = true := by
  induction m generalizing lo with
  | nil => rfl
  | cons c t ih =>
    obtain ⟨a, w⟩ := c
    simp only [Memory.wfFrom, Bool.and_eq_true, decide_eq_true_eq] at hm
    have h := ih hm.2
    unfold Memory.dropBelow at h ⊢
    by_cases hn : n ≤ a
    · rw [List.filter_cons_of_pos (by simpa using hn)]
      simp only [Memory.wfFrom, Bool.and_eq_true, decide_eq_true_eq]
      exact ⟨by omega, Memory.wfFrom_mono (by omega) h⟩
    · rw [List.filter_cons_of_neg (by simpa using hn)]
      exact Memory.wfFrom_mono (by omega) h

theorem Memory.wfFrom_draws_append {m : Memory} (i d n : Nat) (hm : Memory.wfFrom (i + n) m = true) :
    Memory.wfFrom i (Memory.draws i d n ++ m) = true := by
  induction n generalizing i d with
  | zero => simpa [Memory.draws] using hm
  | succ n ih =>
    simp only [Memory.draws, List.cons_append, Memory.wfFrom, Bool.and_eq_true, decide_eq_true_eq]
    exact ⟨Nat.le_refl i, ih (i + 1) (d + 1) (by rwa [show i + 1 + n = i + (n + 1) by omega])⟩

/-- Drawing the bytes below an index keeps the canonical form. -/
theorem Memory.wf_drawBelow {m : Memory} (n d : Nat) (hm : m.wf = true) : (m.drawBelow n d).wf = true := by
  have h := Memory.wfFrom_dropBelow n hm
  rw [Nat.zero_max] at h
  exact Memory.wfFrom_draws_append 0 d n (by rwa [Nat.zero_add])

theorem Memory.wfFrom_shift {m : Memory} {lo : Nat} (k : Nat) (hk : k ≤ lo) (hm : Memory.wfFrom lo m = true) :
    Memory.wfFrom (lo - k) (m.map (fun c => (c.1 - k, c.2))) = true := by
  induction m generalizing lo with
  | nil => rfl
  | cons c t ih =>
    obtain ⟨a, w⟩ := c
    simp only [Memory.wfFrom, Bool.and_eq_true, decide_eq_true_eq] at hm
    simp only [List.map_cons, Memory.wfFrom, Bool.and_eq_true, decide_eq_true_eq]
    exact ⟨by omega, Memory.wfFrom_mono (by omega) (ih (show k ≤ a + 1 by omega) hm.2)⟩

/-- Dropping the first bytes keeps the canonical form. -/
theorem Memory.wf_shiftDown {m : Memory} (k : Nat) (hm : m.wf = true) : (m.shiftDown k).wf = true := by
  have h := Memory.wfFrom_shift k (Nat.le_max_right 0 k) (Memory.wfFrom_dropBelow k hm)
  exact Memory.wfFrom_mono (Nat.zero_le _) h

theorem Memory.read_dropBelow (m : Memory) {n a : Nat} (h : n ≤ a) : (m.dropBelow n).read a = m.read a := by
  induction m with
  | nil => rfl
  | cons c t ih =>
    obtain ⟨b, w⟩ := c
    unfold Memory.dropBelow at ih ⊢
    by_cases hb : n ≤ b
    · rw [List.filter_cons_of_pos (by simpa using hb)]; simp [Memory.read, ih]
    · rw [List.filter_cons_of_neg (by simpa using hb), ih, Memory.read_cons, if_neg (by omega)]

theorem Memory.read_draws_append (m : Memory) (i d n a : Nat) :
    Memory.read (Memory.draws i d n ++ m) a =
      if i ≤ a ∧ a < i + n then some (Config.freeByte (d + (a - i))) else m.read a := by
  induction n generalizing i d with
  | zero => rw [if_neg (by omega)]; rfl
  | succ n ih =>
    simp only [Memory.draws, List.cons_append, Memory.read_cons, ih]
    rcases Nat.lt_trichotomy a i with h | h | h
    · rw [if_neg (by omega), if_neg (by omega), if_neg (by omega)]
    · subst h; rw [if_pos rfl, if_pos (by omega)]; simp
    · rw [if_neg (by omega)]
      by_cases h' : a < i + 1 + n
      · rw [if_pos (by omega), if_pos (by omega), show d + 1 + (a - (i + 1)) = d + (a - i) by omega]
      · rw [if_neg (by omega), if_neg (by omega)]

/-- After the draw every index below `n` holds a free draw, and every other reads as before (R213). -/
theorem Memory.read_drawBelow (m : Memory) (n d a : Nat) :
    (m.drawBelow n d).read a = if a < n then some (Config.freeByte (d + a)) else m.read a := by
  unfold Memory.drawBelow
  rw [Memory.read_draws_append]
  by_cases h : a < n
  · rw [if_pos (by omega), if_pos h, Nat.sub_zero]
  · rw [if_neg (by omega), if_neg h, Memory.read_dropBelow _ (by omega)]

/-- `SRC[k:]` reads at `a` what `SRC` reads at `a + k` (R85 DROP). -/
theorem Memory.read_shiftDown (m : Memory) (k a : Nat) : (m.shiftDown k).read a = m.read (a + k) := by
  rw [← Memory.read_dropBelow m (Nat.le_add_left k a)]
  unfold Memory.shiftDown Memory.dropBelow
  induction m with
  | nil => rfl
  | cons c t ih =>
    obtain ⟨b, w⟩ := c
    by_cases hb : k ≤ b
    · rw [List.filter_cons_of_pos (by simpa using hb)]
      simp only [List.map_cons, Memory.read_cons, ih]
      by_cases h : b = a + k
      · rw [if_pos (by omega), if_pos h]
      · rw [if_neg (by omega), if_neg h]
    · rw [List.filter_cons_of_neg (by simpa using hb)]; exact ih

/-- Where some of `n` bytes is absent, `firstAbsent` is an index of theirs that holds none, and all before it hold one. -/
theorem Memory.firstAbsent_spec {m : Memory} {i n : Nat} (h : m.bytesAt i n = none) :
    i ≤ m.firstAbsent i n ∧ m.firstAbsent i n < i + n ∧ m.read (m.firstAbsent i n) = none ∧
      ∀ a, i ≤ a → a < m.firstAbsent i n → (m.read a).isSome := by
  induction n generalizing i with
  | zero => cases h
  | succ n ih =>
    unfold Memory.firstAbsent
    cases hb : m.read i with
    | none => simp [hb]; omega
    | some b =>
      have ht : m.bytesAt (i + 1) n = none := by
        cases hn : m.bytesAt (i + 1) n with
        | none => rfl
        | some bs => simp [Memory.bytesAt, hb, hn] at h
      obtain ⟨h1, h2, h3, h4⟩ := ih ht
      simp only [Option.isSome_some, if_true]
      refine ⟨by omega, by omega, h3, fun a ha hl => ?_⟩
      rcases Nat.eq_or_lt_of_le ha with rfl | hlt
      · simp [hb]
      · exact h4 a hlt hl

/-- The bytes of `bytesAt`, one by one. -/
theorem Memory.bytesAt_eq_some {m : Memory} {i n : Nat} {bs : List Byte} :
    m.bytesAt i n = some bs ↔ bs.length = n ∧ ∀ k, k < n → m.read (i + k) = bs[k]? := by
  induction n generalizing i bs with
  | zero =>
    simp only [Memory.bytesAt, Option.some.injEq]
    constructor
    · rintro rfl; simp
    · rintro ⟨h, -⟩; exact (List.eq_nil_of_length_eq_zero h).symm
  | succ n ih =>
    simp only [Memory.bytesAt]
    constructor
    · intro h
      split at h
      · next b bs' hb hbs =>
        simp only [Option.some.injEq] at h
        subst h
        obtain ⟨hl, hr⟩ := ih.1 hbs
        refine ⟨by simp [hl], fun k hk => ?_⟩
        cases k with
        | zero => simpa using hb
        | succ k => simpa [show i + (k + 1) = i + 1 + k by omega] using hr k (by omega)
      · cases h
    · rintro ⟨hl, hr⟩
      cases bs with
      | nil => simp at hl
      | cons b bs =>
        have h0 : m.read i = some b := by simpa using hr 0 (by omega)
        have h1 : m.bytesAt (i + 1) n = some bs :=
          ih.2 ⟨by simpa using hl, fun k hk => by
            simpa [show i + (k + 1) = i + 1 + k by omega] using hr (k + 1) (by omega)⟩
        rw [h0, h1]

end Sys2Proof.Machine
end

