-- ==== Sys2Proof/Laws/State.lean ====
section
/-! SUPPORT. One lemma per field per update of the state, each true by rfl, so that no proof unfolds a record update. -/

namespace Sys2Proof.Machine

open Sys2Proof

variable (s : State)

/-! `latchOp` (R81). -/

@[simp] theorem State.latchOp_sizeBits (code : Byte) : (s.latchOp code).sizeBits = s.sizeBits := rfl
@[simp] theorem State.latchOp_op (code : Byte) : (s.latchOp code).op = code := rfl
@[simp] theorem State.latchOp_srcLen (code : Byte) : (s.latchOp code).srcLen = s.srcLen := rfl
@[simp] theorem State.latchOp_dstCap (code : Byte) : (s.latchOp code).dstCap = s.dstCap := rfl
@[simp] theorem State.latchOp_arg (code : Byte) : (s.latchOp code).arg = s.arg := rfl
@[simp] theorem State.latchOp_status (code : Byte) : (s.latchOp code).status = s.status := rfl
@[simp] theorem State.latchOp_produced (code : Byte) : (s.latchOp code).produced = s.produced := rfl
@[simp] theorem State.latchOp_consumed (code : Byte) : (s.latchOp code).consumed = s.consumed := rfl
@[simp] theorem State.latchOp_result (code : Byte) : (s.latchOp code).result = s.result := rfl
@[simp] theorem State.latchOp_written (code : Byte) : (s.latchOp code).written = { s.written with op := true } := rfl
@[simp] theorem State.latchOp_phase (code : Byte) : (s.latchOp code).phase = s.phase := rfl
@[simp] theorem State.latchOp_rd (code : Byte) : (s.latchOp code).rd = s.rd := rfl
@[simp] theorem State.latchOp_wr (code : Byte) : (s.latchOp code).wr = s.wr := rfl
@[simp] theorem State.latchOp_run (code : Byte) : (s.latchOp code).run = s.run := rfl
@[simp] theorem State.latchOp_ofsPtr (code : Byte) : (s.latchOp code).ofsPtr = s.ofsPtr := rfl
@[simp] theorem State.latchOp_pend (code : Byte) : (s.latchOp code).pend = s.pend := rfl
@[simp] theorem State.latchOp_rem (code : Byte) : (s.latchOp code).rem = s.rem := rfl
@[simp] theorem State.latchOp_prev (code : Byte) : (s.latchOp code).prev = s.prev := rfl
@[simp] theorem State.latchOp_src (code : Byte) : (s.latchOp code).src = s.src := rfl
@[simp] theorem State.latchOp_dst (code : Byte) : (s.latchOp code).dst = s.dst := rfl
@[simp] theorem State.latchOp_host (code : Byte) : (s.latchOp code).host = s.host := rfl
@[simp] theorem State.latchOp_resetIn (code : Byte) : (s.latchOp code).resetIn = s.resetIn := rfl
@[simp] theorem State.latchOp_freeCount (code : Byte) : (s.latchOp code).freeCount = s.freeCount := rfl

/-! `advanceRd` (R27). -/

@[simp] theorem State.advanceRd_sizeBits : (s.advanceRd).sizeBits = s.sizeBits := rfl
@[simp] theorem State.advanceRd_op : (s.advanceRd).op = s.op := rfl
@[simp] theorem State.advanceRd_srcLen : (s.advanceRd).srcLen = s.srcLen := rfl
@[simp] theorem State.advanceRd_dstCap : (s.advanceRd).dstCap = s.dstCap := rfl
@[simp] theorem State.advanceRd_arg : (s.advanceRd).arg = s.arg := rfl
@[simp] theorem State.advanceRd_status : (s.advanceRd).status = s.status := rfl
@[simp] theorem State.advanceRd_produced : (s.advanceRd).produced = s.produced := rfl
@[simp] theorem State.advanceRd_consumed : (s.advanceRd).consumed = s.consumed := rfl
@[simp] theorem State.advanceRd_result : (s.advanceRd).result = s.result := rfl
@[simp] theorem State.advanceRd_written : (s.advanceRd).written = s.written := rfl
@[simp] theorem State.advanceRd_phase : (s.advanceRd).phase = s.phase := rfl
@[simp] theorem State.advanceRd_rd : (s.advanceRd).rd = s.rd + 1 := rfl
@[simp] theorem State.advanceRd_wr : (s.advanceRd).wr = s.wr := rfl
@[simp] theorem State.advanceRd_run : (s.advanceRd).run = s.run := rfl
@[simp] theorem State.advanceRd_ofsPtr : (s.advanceRd).ofsPtr = s.ofsPtr := rfl
@[simp] theorem State.advanceRd_pend : (s.advanceRd).pend = s.pend := rfl
@[simp] theorem State.advanceRd_rem : (s.advanceRd).rem = s.rem := rfl
@[simp] theorem State.advanceRd_prev : (s.advanceRd).prev = s.prev := rfl
@[simp] theorem State.advanceRd_src : (s.advanceRd).src = s.src := rfl
@[simp] theorem State.advanceRd_dst : (s.advanceRd).dst = s.dst := rfl
@[simp] theorem State.advanceRd_host : (s.advanceRd).host = s.host := rfl
@[simp] theorem State.advanceRd_resetIn : (s.advanceRd).resetIn = s.resetIn := rfl
@[simp] theorem State.advanceRd_freeCount : (s.advanceRd).freeCount = s.freeCount := rfl

/-! `putDst` (R52). -/

@[simp] theorem State.putDst_sizeBits (i : Nat) (v : Byte) : (s.putDst i v).sizeBits = s.sizeBits := rfl
@[simp] theorem State.putDst_op (i : Nat) (v : Byte) : (s.putDst i v).op = s.op := rfl
@[simp] theorem State.putDst_srcLen (i : Nat) (v : Byte) : (s.putDst i v).srcLen = s.srcLen := rfl
@[simp] theorem State.putDst_dstCap (i : Nat) (v : Byte) : (s.putDst i v).dstCap = s.dstCap := rfl
@[simp] theorem State.putDst_arg (i : Nat) (v : Byte) : (s.putDst i v).arg = s.arg := rfl
@[simp] theorem State.putDst_status (i : Nat) (v : Byte) : (s.putDst i v).status = s.status := rfl
@[simp] theorem State.putDst_produced (i : Nat) (v : Byte) : (s.putDst i v).produced = s.produced := rfl
@[simp] theorem State.putDst_consumed (i : Nat) (v : Byte) : (s.putDst i v).consumed = s.consumed := rfl
@[simp] theorem State.putDst_result (i : Nat) (v : Byte) : (s.putDst i v).result = s.result := rfl
@[simp] theorem State.putDst_written (i : Nat) (v : Byte) : (s.putDst i v).written = s.written := rfl
@[simp] theorem State.putDst_phase (i : Nat) (v : Byte) : (s.putDst i v).phase = s.phase := rfl
@[simp] theorem State.putDst_rd (i : Nat) (v : Byte) : (s.putDst i v).rd = s.rd := rfl
@[simp] theorem State.putDst_wr (i : Nat) (v : Byte) : (s.putDst i v).wr = s.wr := rfl
@[simp] theorem State.putDst_run (i : Nat) (v : Byte) : (s.putDst i v).run = s.run := rfl
@[simp] theorem State.putDst_ofsPtr (i : Nat) (v : Byte) : (s.putDst i v).ofsPtr = s.ofsPtr := rfl
@[simp] theorem State.putDst_pend (i : Nat) (v : Byte) : (s.putDst i v).pend = s.pend := rfl
@[simp] theorem State.putDst_rem (i : Nat) (v : Byte) : (s.putDst i v).rem = s.rem := rfl
@[simp] theorem State.putDst_prev (i : Nat) (v : Byte) : (s.putDst i v).prev = s.prev := rfl
@[simp] theorem State.putDst_src (i : Nat) (v : Byte) : (s.putDst i v).src = s.src := rfl
@[simp] theorem State.putDst_dst (i : Nat) (v : Byte) : (s.putDst i v).dst = s.dst.write i v := rfl
@[simp] theorem State.putDst_host (i : Nat) (v : Byte) : (s.putDst i v).host = s.host := rfl
@[simp] theorem State.putDst_resetIn (i : Nat) (v : Byte) : (s.putDst i v).resetIn = s.resetIn := rfl
@[simp] theorem State.putDst_freeCount (i : Nat) (v : Byte) : (s.putDst i v).freeCount = s.freeCount := rfl

/-! `finalizeSlot` (R128). -/

@[simp] theorem State.finalizeSlot_sizeBits (v : Byte) : (s.finalizeSlot v).sizeBits = s.sizeBits := rfl
@[simp] theorem State.finalizeSlot_op (v : Byte) : (s.finalizeSlot v).op = s.op := rfl
@[simp] theorem State.finalizeSlot_srcLen (v : Byte) : (s.finalizeSlot v).srcLen = s.srcLen := rfl
@[simp] theorem State.finalizeSlot_dstCap (v : Byte) : (s.finalizeSlot v).dstCap = s.dstCap := rfl
@[simp] theorem State.finalizeSlot_arg (v : Byte) : (s.finalizeSlot v).arg = s.arg := rfl
@[simp] theorem State.finalizeSlot_status (v : Byte) : (s.finalizeSlot v).status = s.status := rfl
@[simp] theorem State.finalizeSlot_produced (v : Byte) : (s.finalizeSlot v).produced = s.produced := rfl
@[simp] theorem State.finalizeSlot_consumed (v : Byte) : (s.finalizeSlot v).consumed = s.consumed := rfl
@[simp] theorem State.finalizeSlot_result (v : Byte) : (s.finalizeSlot v).result = s.result := rfl
@[simp] theorem State.finalizeSlot_written (v : Byte) : (s.finalizeSlot v).written = s.written := rfl
@[simp] theorem State.finalizeSlot_phase (v : Byte) : (s.finalizeSlot v).phase = s.phase := rfl
@[simp] theorem State.finalizeSlot_rd (v : Byte) : (s.finalizeSlot v).rd = s.rd := rfl
@[simp] theorem State.finalizeSlot_wr (v : Byte) : (s.finalizeSlot v).wr = s.wr := rfl
@[simp] theorem State.finalizeSlot_run (v : Byte) : (s.finalizeSlot v).run = s.run := rfl
@[simp] theorem State.finalizeSlot_ofsPtr (v : Byte) : (s.finalizeSlot v).ofsPtr = s.ofsPtr := rfl
@[simp] theorem State.finalizeSlot_pend (v : Byte) : (s.finalizeSlot v).pend = s.pend := rfl
@[simp] theorem State.finalizeSlot_rem (v : Byte) : (s.finalizeSlot v).rem = s.rem := rfl
@[simp] theorem State.finalizeSlot_prev (v : Byte) : (s.finalizeSlot v).prev = s.prev := rfl
@[simp] theorem State.finalizeSlot_src (v : Byte) : (s.finalizeSlot v).src = s.src := rfl
@[simp] theorem State.finalizeSlot_dst (v : Byte) : (s.finalizeSlot v).dst = s.dst.write s.ofsPtr v := rfl
@[simp] theorem State.finalizeSlot_host (v : Byte) : (s.finalizeSlot v).host = s.host := rfl
@[simp] theorem State.finalizeSlot_resetIn (v : Byte) : (s.finalizeSlot v).resetIn = s.resetIn := rfl
@[simp] theorem State.finalizeSlot_freeCount (v : Byte) : (s.finalizeSlot v).freeCount = s.freeCount := rfl

/-! `placeByte` (R28). -/

@[simp] theorem State.placeByte_sizeBits (v : Byte) : (s.placeByte v).sizeBits = s.sizeBits := rfl
@[simp] theorem State.placeByte_op (v : Byte) : (s.placeByte v).op = s.op := rfl
@[simp] theorem State.placeByte_srcLen (v : Byte) : (s.placeByte v).srcLen = s.srcLen := rfl
@[simp] theorem State.placeByte_dstCap (v : Byte) : (s.placeByte v).dstCap = s.dstCap := rfl
@[simp] theorem State.placeByte_arg (v : Byte) : (s.placeByte v).arg = s.arg := rfl
@[simp] theorem State.placeByte_status (v : Byte) : (s.placeByte v).status = s.status := rfl
@[simp] theorem State.placeByte_produced (v : Byte) : (s.placeByte v).produced = s.produced := rfl
@[simp] theorem State.placeByte_consumed (v : Byte) : (s.placeByte v).consumed = s.consumed := rfl
@[simp] theorem State.placeByte_result (v : Byte) : (s.placeByte v).result = s.result := rfl
@[simp] theorem State.placeByte_written (v : Byte) : (s.placeByte v).written = s.written := rfl
@[simp] theorem State.placeByte_phase (v : Byte) : (s.placeByte v).phase = s.phase := rfl
@[simp] theorem State.placeByte_rd (v : Byte) : (s.placeByte v).rd = s.rd := rfl
@[simp] theorem State.placeByte_wr (v : Byte) : (s.placeByte v).wr = s.wr + 1 := rfl
@[simp] theorem State.placeByte_run (v : Byte) : (s.placeByte v).run = s.run := rfl
@[simp] theorem State.placeByte_ofsPtr (v : Byte) : (s.placeByte v).ofsPtr = s.ofsPtr := rfl
@[simp] theorem State.placeByte_pend (v : Byte) : (s.placeByte v).pend = s.pend := rfl
@[simp] theorem State.placeByte_rem (v : Byte) : (s.placeByte v).rem = s.rem := rfl
@[simp] theorem State.placeByte_prev (v : Byte) : (s.placeByte v).prev = s.prev := rfl
@[simp] theorem State.placeByte_src (v : Byte) : (s.placeByte v).src = s.src := rfl
@[simp] theorem State.placeByte_dst (v : Byte) : (s.placeByte v).dst = s.dst.write s.wr v := rfl
@[simp] theorem State.placeByte_host (v : Byte) : (s.placeByte v).host = s.host := rfl
@[simp] theorem State.placeByte_resetIn (v : Byte) : (s.placeByte v).resetIn = s.resetIn := rfl
@[simp] theorem State.placeByte_freeCount (v : Byte) : (s.placeByte v).freeCount = s.freeCount := rfl

/-! `openSlot` (R126, R127). -/

@[simp] theorem State.openSlot_sizeBits : (s.openSlot).sizeBits = s.sizeBits := rfl
@[simp] theorem State.openSlot_op : (s.openSlot).op = s.op := rfl
@[simp] theorem State.openSlot_srcLen : (s.openSlot).srcLen = s.srcLen := rfl
@[simp] theorem State.openSlot_dstCap : (s.openSlot).dstCap = s.dstCap := rfl
@[simp] theorem State.openSlot_arg : (s.openSlot).arg = s.arg := rfl
@[simp] theorem State.openSlot_status : (s.openSlot).status = s.status := rfl
@[simp] theorem State.openSlot_produced : (s.openSlot).produced = s.produced := rfl
@[simp] theorem State.openSlot_consumed : (s.openSlot).consumed = s.consumed := rfl
@[simp] theorem State.openSlot_result : (s.openSlot).result = s.result := rfl
@[simp] theorem State.openSlot_written : (s.openSlot).written = s.written := rfl
@[simp] theorem State.openSlot_phase : (s.openSlot).phase = s.phase := rfl
@[simp] theorem State.openSlot_rd : (s.openSlot).rd = s.rd := rfl
@[simp] theorem State.openSlot_wr : (s.openSlot).wr = s.wr + 1 := rfl
@[simp] theorem State.openSlot_run : (s.openSlot).run = 0x01#8 := rfl
@[simp] theorem State.openSlot_ofsPtr : (s.openSlot).ofsPtr = s.wr := rfl
@[simp] theorem State.openSlot_pend : (s.openSlot).pend = s.pend := rfl
@[simp] theorem State.openSlot_rem : (s.openSlot).rem = s.rem := rfl
@[simp] theorem State.openSlot_prev : (s.openSlot).prev = s.prev := rfl
@[simp] theorem State.openSlot_src : (s.openSlot).src = s.src := rfl
@[simp] theorem State.openSlot_dst : (s.openSlot).dst = s.dst := rfl
@[simp] theorem State.openSlot_host : (s.openSlot).host = s.host := rfl
@[simp] theorem State.openSlot_resetIn : (s.openSlot).resetIn = s.resetIn := rfl
@[simp] theorem State.openSlot_freeCount : (s.openSlot).freeCount = s.freeCount := rfl

/-! `complete` (R211). -/

@[simp] theorem State.complete_sizeBits (st : Status) (c p r : Nat) : (s.complete st c p r).sizeBits = s.sizeBits := rfl
@[simp] theorem State.complete_op (st : Status) (c p r : Nat) : (s.complete st c p r).op = s.op := rfl
@[simp] theorem State.complete_srcLen (st : Status) (c p r : Nat) : (s.complete st c p r).srcLen = s.srcLen := rfl
@[simp] theorem State.complete_dstCap (st : Status) (c p r : Nat) : (s.complete st c p r).dstCap = s.dstCap := rfl
@[simp] theorem State.complete_arg (st : Status) (c p r : Nat) : (s.complete st c p r).arg = s.arg := rfl
@[simp] theorem State.complete_status (st : Status) (c p r : Nat) : (s.complete st c p r).status = st := rfl
@[simp] theorem State.complete_produced (st : Status) (c p r : Nat) : (s.complete st c p r).produced = p := rfl
@[simp] theorem State.complete_consumed (st : Status) (c p r : Nat) : (s.complete st c p r).consumed = c := rfl
@[simp] theorem State.complete_result (st : Status) (c p r : Nat) : (s.complete st c p r).result = r := rfl
@[simp] theorem State.complete_written (st : Status) (c p r : Nat) : (s.complete st c p r).written = { s.written with results := true } := rfl
@[simp] theorem State.complete_phase (st : Status) (c p r : Nat) : (s.complete st c p r).phase = .idle := rfl
@[simp] theorem State.complete_rd (st : Status) (c p r : Nat) : (s.complete st c p r).rd = s.rd := rfl
@[simp] theorem State.complete_wr (st : Status) (c p r : Nat) : (s.complete st c p r).wr = s.wr := rfl
@[simp] theorem State.complete_run (st : Status) (c p r : Nat) : (s.complete st c p r).run = s.run := rfl
@[simp] theorem State.complete_ofsPtr (st : Status) (c p r : Nat) : (s.complete st c p r).ofsPtr = s.ofsPtr := rfl
@[simp] theorem State.complete_pend (st : Status) (c p r : Nat) : (s.complete st c p r).pend = s.pend := rfl
@[simp] theorem State.complete_rem (st : Status) (c p r : Nat) : (s.complete st c p r).rem = s.rem := rfl
@[simp] theorem State.complete_prev (st : Status) (c p r : Nat) : (s.complete st c p r).prev = s.prev := rfl
@[simp] theorem State.complete_src (st : Status) (c p r : Nat) : (s.complete st c p r).src = s.src := rfl
@[simp] theorem State.complete_dst (st : Status) (c p r : Nat) : (s.complete st c p r).dst = s.dst := rfl
@[simp] theorem State.complete_host (st : Status) (c p r : Nat) : (s.complete st c p r).host = s.host := rfl
@[simp] theorem State.complete_resetIn (st : Status) (c p r : Nat) : (s.complete st c p r).resetIn = s.resetIn := rfl
@[simp] theorem State.complete_freeCount (st : Status) (c p r : Nat) : (s.complete st c p r).freeCount = s.freeCount := rfl

/-! `drawDst` (R213). -/

@[simp] theorem State.drawDst_sizeBits : (s.drawDst).sizeBits = s.sizeBits := rfl
@[simp] theorem State.drawDst_op : (s.drawDst).op = s.op := rfl
@[simp] theorem State.drawDst_srcLen : (s.drawDst).srcLen = s.srcLen := rfl
@[simp] theorem State.drawDst_dstCap : (s.drawDst).dstCap = s.dstCap := rfl
@[simp] theorem State.drawDst_arg : (s.drawDst).arg = s.arg := rfl
@[simp] theorem State.drawDst_status : (s.drawDst).status = s.status := rfl
@[simp] theorem State.drawDst_produced : (s.drawDst).produced = s.produced := rfl
@[simp] theorem State.drawDst_consumed : (s.drawDst).consumed = s.consumed := rfl
@[simp] theorem State.drawDst_result : (s.drawDst).result = s.result := rfl
@[simp] theorem State.drawDst_written : (s.drawDst).written = s.written := rfl
@[simp] theorem State.drawDst_phase : (s.drawDst).phase = s.phase := rfl
@[simp] theorem State.drawDst_rd : (s.drawDst).rd = s.rd := rfl
@[simp] theorem State.drawDst_wr : (s.drawDst).wr = s.wr := rfl
@[simp] theorem State.drawDst_run : (s.drawDst).run = s.run := rfl
@[simp] theorem State.drawDst_ofsPtr : (s.drawDst).ofsPtr = s.ofsPtr := rfl
@[simp] theorem State.drawDst_pend : (s.drawDst).pend = s.pend := rfl
@[simp] theorem State.drawDst_rem : (s.drawDst).rem = s.rem := rfl
@[simp] theorem State.drawDst_prev : (s.drawDst).prev = s.prev := rfl
@[simp] theorem State.drawDst_src : (s.drawDst).src = s.src := rfl
@[simp] theorem State.drawDst_dst : (s.drawDst).dst = s.dst.drawBelow s.dstCap s.freeCount := rfl
@[simp] theorem State.drawDst_host : (s.drawDst).host = s.host := rfl
@[simp] theorem State.drawDst_resetIn : (s.drawDst).resetIn = s.resetIn := rfl
@[simp] theorem State.drawDst_freeCount : (s.drawDst).freeCount = s.freeCount + s.dstCap := rfl

/-! `fail` (R212, R213). -/

@[simp] theorem State.fail_sizeBits (st : Status) (c : Nat) : (s.fail st c).sizeBits = s.sizeBits := rfl
@[simp] theorem State.fail_op (st : Status) (c : Nat) : (s.fail st c).op = s.op := rfl
@[simp] theorem State.fail_srcLen (st : Status) (c : Nat) : (s.fail st c).srcLen = s.srcLen := rfl
@[simp] theorem State.fail_dstCap (st : Status) (c : Nat) : (s.fail st c).dstCap = s.dstCap := rfl
@[simp] theorem State.fail_arg (st : Status) (c : Nat) : (s.fail st c).arg = s.arg := rfl
@[simp] theorem State.fail_status (st : Status) (c : Nat) : (s.fail st c).status = st := rfl
@[simp] theorem State.fail_produced (st : Status) (c : Nat) : (s.fail st c).produced = 0 := rfl
@[simp] theorem State.fail_consumed (st : Status) (c : Nat) : (s.fail st c).consumed = c := rfl
@[simp] theorem State.fail_result (st : Status) (c : Nat) : (s.fail st c).result = 0 := rfl
@[simp] theorem State.fail_written (st : Status) (c : Nat) : (s.fail st c).written = { s.written with results := true } := rfl
@[simp] theorem State.fail_phase (st : Status) (c : Nat) : (s.fail st c).phase = .idle := rfl
@[simp] theorem State.fail_rd (st : Status) (c : Nat) : (s.fail st c).rd = s.rd := rfl
@[simp] theorem State.fail_wr (st : Status) (c : Nat) : (s.fail st c).wr = s.wr := rfl
@[simp] theorem State.fail_run (st : Status) (c : Nat) : (s.fail st c).run = s.run := rfl
@[simp] theorem State.fail_ofsPtr (st : Status) (c : Nat) : (s.fail st c).ofsPtr = s.ofsPtr := rfl
@[simp] theorem State.fail_pend (st : Status) (c : Nat) : (s.fail st c).pend = s.pend := rfl
@[simp] theorem State.fail_rem (st : Status) (c : Nat) : (s.fail st c).rem = s.rem := rfl
@[simp] theorem State.fail_prev (st : Status) (c : Nat) : (s.fail st c).prev = s.prev := rfl
@[simp] theorem State.fail_src (st : Status) (c : Nat) : (s.fail st c).src = s.src := rfl
@[simp] theorem State.fail_dst (st : Status) (c : Nat) : (s.fail st c).dst = s.dst.drawBelow s.dstCap s.freeCount := rfl
@[simp] theorem State.fail_host (st : Status) (c : Nat) : (s.fail st c).host = s.host := rfl
@[simp] theorem State.fail_resetIn (st : Status) (c : Nat) : (s.fail st c).resetIn = s.resetIn := rfl
@[simp] theorem State.fail_freeCount (st : Status) (c : Nat) : (s.fail st c).freeCount = s.freeCount + s.dstCap := rfl

/-! `startEncode` (R124). -/

@[simp] theorem State.startEncode_sizeBits : (s.startEncode).sizeBits = s.sizeBits := rfl
@[simp] theorem State.startEncode_op : (s.startEncode).op = s.op := rfl
@[simp] theorem State.startEncode_srcLen : (s.startEncode).srcLen = s.srcLen := rfl
@[simp] theorem State.startEncode_dstCap : (s.startEncode).dstCap = s.dstCap := rfl
@[simp] theorem State.startEncode_arg : (s.startEncode).arg = s.arg := rfl
@[simp] theorem State.startEncode_status : (s.startEncode).status = s.status := rfl
@[simp] theorem State.startEncode_produced : (s.startEncode).produced = s.produced := rfl
@[simp] theorem State.startEncode_consumed : (s.startEncode).consumed = s.consumed := rfl
@[simp] theorem State.startEncode_result : (s.startEncode).result = s.result := rfl
@[simp] theorem State.startEncode_written : (s.startEncode).written = s.written := rfl
@[simp] theorem State.startEncode_phase : (s.startEncode).phase = .encScan := rfl
@[simp] theorem State.startEncode_rd : (s.startEncode).rd = 0 := rfl
@[simp] theorem State.startEncode_wr : (s.startEncode).wr = 1 := rfl
@[simp] theorem State.startEncode_run : (s.startEncode).run = 0x01#8 := rfl
@[simp] theorem State.startEncode_ofsPtr : (s.startEncode).ofsPtr = 0 := rfl
@[simp] theorem State.startEncode_pend : (s.startEncode).pend = true := rfl
@[simp] theorem State.startEncode_rem : (s.startEncode).rem = s.rem := rfl
@[simp] theorem State.startEncode_prev : (s.startEncode).prev = s.prev := rfl
@[simp] theorem State.startEncode_src : (s.startEncode).src = s.src := rfl
@[simp] theorem State.startEncode_dst : (s.startEncode).dst = s.dst := rfl
@[simp] theorem State.startEncode_host : (s.startEncode).host = s.host := rfl
@[simp] theorem State.startEncode_resetIn : (s.startEncode).resetIn = s.resetIn := rfl
@[simp] theorem State.startEncode_freeCount : (s.startEncode).freeCount = s.freeCount := rfl

/-! `countRun` (R127). -/

@[simp] theorem State.countRun_sizeBits : (s.countRun).sizeBits = s.sizeBits := rfl
@[simp] theorem State.countRun_op : (s.countRun).op = s.op := rfl
@[simp] theorem State.countRun_srcLen : (s.countRun).srcLen = s.srcLen := rfl
@[simp] theorem State.countRun_dstCap : (s.countRun).dstCap = s.dstCap := rfl
@[simp] theorem State.countRun_arg : (s.countRun).arg = s.arg := rfl
@[simp] theorem State.countRun_status : (s.countRun).status = s.status := rfl
@[simp] theorem State.countRun_produced : (s.countRun).produced = s.produced := rfl
@[simp] theorem State.countRun_consumed : (s.countRun).consumed = s.consumed := rfl
@[simp] theorem State.countRun_result : (s.countRun).result = s.result := rfl
@[simp] theorem State.countRun_written : (s.countRun).written = s.written := rfl
@[simp] theorem State.countRun_phase : (s.countRun).phase = s.phase := rfl
@[simp] theorem State.countRun_rd : (s.countRun).rd = s.rd := rfl
@[simp] theorem State.countRun_wr : (s.countRun).wr = s.wr := rfl
@[simp] theorem State.countRun_run : (s.countRun).run = s.run + 0x01#8 := rfl
@[simp] theorem State.countRun_ofsPtr : (s.countRun).ofsPtr = s.ofsPtr := rfl
@[simp] theorem State.countRun_pend : (s.countRun).pend = s.pend := rfl
@[simp] theorem State.countRun_rem : (s.countRun).rem = s.rem := rfl
@[simp] theorem State.countRun_prev : (s.countRun).prev = s.prev := rfl
@[simp] theorem State.countRun_src : (s.countRun).src = s.src := rfl
@[simp] theorem State.countRun_dst : (s.countRun).dst = s.dst := rfl
@[simp] theorem State.countRun_host : (s.countRun).host = s.host := rfl
@[simp] theorem State.countRun_resetIn : (s.countRun).resetIn = s.resetIn := rfl
@[simp] theorem State.countRun_freeCount : (s.countRun).freeCount = s.freeCount := rfl

/-! `encSourceEnd` (R125). -/

@[simp] theorem State.encSourceEnd_sizeBits : (s.encSourceEnd).sizeBits = s.sizeBits := rfl
@[simp] theorem State.encSourceEnd_op : (s.encSourceEnd).op = s.op := rfl
@[simp] theorem State.encSourceEnd_srcLen : (s.encSourceEnd).srcLen = s.srcLen := rfl
@[simp] theorem State.encSourceEnd_dstCap : (s.encSourceEnd).dstCap = s.dstCap := rfl
@[simp] theorem State.encSourceEnd_arg : (s.encSourceEnd).arg = s.arg := rfl
@[simp] theorem State.encSourceEnd_status : (s.encSourceEnd).status = s.status := rfl
@[simp] theorem State.encSourceEnd_produced : (s.encSourceEnd).produced = s.produced := rfl
@[simp] theorem State.encSourceEnd_consumed : (s.encSourceEnd).consumed = s.consumed := rfl
@[simp] theorem State.encSourceEnd_result : (s.encSourceEnd).result = s.result := rfl
@[simp] theorem State.encSourceEnd_written : (s.encSourceEnd).written = s.written := rfl
@[simp] theorem State.encSourceEnd_phase : (s.encSourceEnd).phase = .encFinish := rfl
@[simp] theorem State.encSourceEnd_rd : (s.encSourceEnd).rd = s.rd := rfl
@[simp] theorem State.encSourceEnd_wr : (s.encSourceEnd).wr = s.wr := rfl
@[simp] theorem State.encSourceEnd_run : (s.encSourceEnd).run = s.run := rfl
@[simp] theorem State.encSourceEnd_ofsPtr : (s.encSourceEnd).ofsPtr = s.ofsPtr := rfl
@[simp] theorem State.encSourceEnd_pend : (s.encSourceEnd).pend = s.pend := rfl
@[simp] theorem State.encSourceEnd_rem : (s.encSourceEnd).rem = s.rem := rfl
@[simp] theorem State.encSourceEnd_prev : (s.encSourceEnd).prev = s.prev := rfl
@[simp] theorem State.encSourceEnd_src : (s.encSourceEnd).src = s.src := rfl
@[simp] theorem State.encSourceEnd_dst : (s.encSourceEnd).dst = s.dst := rfl
@[simp] theorem State.encSourceEnd_host : (s.encSourceEnd).host = s.host := rfl
@[simp] theorem State.encSourceEnd_resetIn : (s.encSourceEnd).resetIn = s.resetIn := rfl
@[simp] theorem State.encSourceEnd_freeCount : (s.encSourceEnd).freeCount = s.freeCount := rfl

/-! `startDecode` (R161). -/

@[simp] theorem State.startDecode_sizeBits : (s.startDecode).sizeBits = s.sizeBits := rfl
@[simp] theorem State.startDecode_op : (s.startDecode).op = s.op := rfl
@[simp] theorem State.startDecode_srcLen : (s.startDecode).srcLen = s.srcLen := rfl
@[simp] theorem State.startDecode_dstCap : (s.startDecode).dstCap = s.dstCap := rfl
@[simp] theorem State.startDecode_arg : (s.startDecode).arg = s.arg := rfl
@[simp] theorem State.startDecode_status : (s.startDecode).status = s.status := rfl
@[simp] theorem State.startDecode_produced : (s.startDecode).produced = s.produced := rfl
@[simp] theorem State.startDecode_consumed : (s.startDecode).consumed = s.consumed := rfl
@[simp] theorem State.startDecode_result : (s.startDecode).result = s.result := rfl
@[simp] theorem State.startDecode_written : (s.startDecode).written = s.written := rfl
@[simp] theorem State.startDecode_phase : (s.startDecode).phase = .decAwaitOffset := rfl
@[simp] theorem State.startDecode_rd : (s.startDecode).rd = 0 := rfl
@[simp] theorem State.startDecode_wr : (s.startDecode).wr = 0 := rfl
@[simp] theorem State.startDecode_run : (s.startDecode).run = s.run := rfl
@[simp] theorem State.startDecode_ofsPtr : (s.startDecode).ofsPtr = s.ofsPtr := rfl
@[simp] theorem State.startDecode_pend : (s.startDecode).pend = s.pend := rfl
@[simp] theorem State.startDecode_rem : (s.startDecode).rem = 0x00#8 := rfl
@[simp] theorem State.startDecode_prev : (s.startDecode).prev = 0x00#8 := rfl
@[simp] theorem State.startDecode_src : (s.startDecode).src = s.src := rfl
@[simp] theorem State.startDecode_dst : (s.startDecode).dst = s.dst := rfl
@[simp] theorem State.startDecode_host : (s.startDecode).host = s.host := rfl
@[simp] theorem State.startDecode_resetIn : (s.startDecode).resetIn = s.resetIn := rfl
@[simp] theorem State.startDecode_freeCount : (s.startDecode).freeCount = s.freeCount := rfl

/-! `decSourceEnd` (R162). -/

@[simp] theorem State.decSourceEnd_sizeBits : (s.decSourceEnd).sizeBits = s.sizeBits := rfl
@[simp] theorem State.decSourceEnd_op : (s.decSourceEnd).op = s.op := rfl
@[simp] theorem State.decSourceEnd_srcLen : (s.decSourceEnd).srcLen = s.srcLen := rfl
@[simp] theorem State.decSourceEnd_dstCap : (s.decSourceEnd).dstCap = s.dstCap := rfl
@[simp] theorem State.decSourceEnd_arg : (s.decSourceEnd).arg = s.arg := rfl
@[simp] theorem State.decSourceEnd_status : (s.decSourceEnd).status = .readOverflow := rfl
@[simp] theorem State.decSourceEnd_produced : (s.decSourceEnd).produced = 0 := rfl
@[simp] theorem State.decSourceEnd_consumed : (s.decSourceEnd).consumed = 0 := rfl
@[simp] theorem State.decSourceEnd_result : (s.decSourceEnd).result = 0 := rfl
@[simp] theorem State.decSourceEnd_written : (s.decSourceEnd).written = { s.written with results := true } := rfl
@[simp] theorem State.decSourceEnd_phase : (s.decSourceEnd).phase = .idle := rfl
@[simp] theorem State.decSourceEnd_rd : (s.decSourceEnd).rd = s.rd := rfl
@[simp] theorem State.decSourceEnd_wr : (s.decSourceEnd).wr = s.wr := rfl
@[simp] theorem State.decSourceEnd_run : (s.decSourceEnd).run = s.run := rfl
@[simp] theorem State.decSourceEnd_ofsPtr : (s.decSourceEnd).ofsPtr = s.ofsPtr := rfl
@[simp] theorem State.decSourceEnd_pend : (s.decSourceEnd).pend = s.pend := rfl
@[simp] theorem State.decSourceEnd_rem : (s.decSourceEnd).rem = s.rem := rfl
@[simp] theorem State.decSourceEnd_prev : (s.decSourceEnd).prev = s.prev := rfl
@[simp] theorem State.decSourceEnd_src : (s.decSourceEnd).src = s.src := rfl
@[simp] theorem State.decSourceEnd_dst : (s.decSourceEnd).dst = s.dst.drawBelow s.dstCap s.freeCount := rfl
@[simp] theorem State.decSourceEnd_host : (s.decSourceEnd).host = s.host := rfl
@[simp] theorem State.decSourceEnd_resetIn : (s.decSourceEnd).resetIn = s.resetIn := rfl
@[simp] theorem State.decSourceEnd_freeCount : (s.decSourceEnd).freeCount = s.freeCount + s.dstCap := rfl

/-! `loadRun` (R164). -/

@[simp] theorem State.loadRun_sizeBits (c : Byte) : (s.loadRun c).sizeBits = s.sizeBits := rfl
@[simp] theorem State.loadRun_op (c : Byte) : (s.loadRun c).op = s.op := rfl
@[simp] theorem State.loadRun_srcLen (c : Byte) : (s.loadRun c).srcLen = s.srcLen := rfl
@[simp] theorem State.loadRun_dstCap (c : Byte) : (s.loadRun c).dstCap = s.dstCap := rfl
@[simp] theorem State.loadRun_arg (c : Byte) : (s.loadRun c).arg = s.arg := rfl
@[simp] theorem State.loadRun_status (c : Byte) : (s.loadRun c).status = s.status := rfl
@[simp] theorem State.loadRun_produced (c : Byte) : (s.loadRun c).produced = s.produced := rfl
@[simp] theorem State.loadRun_consumed (c : Byte) : (s.loadRun c).consumed = s.consumed := rfl
@[simp] theorem State.loadRun_result (c : Byte) : (s.loadRun c).result = s.result := rfl
@[simp] theorem State.loadRun_written (c : Byte) : (s.loadRun c).written = s.written := rfl
@[simp] theorem State.loadRun_phase (c : Byte) : (s.loadRun c).phase = runPhase (remOfOffset c) := rfl
@[simp] theorem State.loadRun_rd (c : Byte) : (s.loadRun c).rd = s.rd := rfl
@[simp] theorem State.loadRun_wr (c : Byte) : (s.loadRun c).wr = s.wr := rfl
@[simp] theorem State.loadRun_run (c : Byte) : (s.loadRun c).run = s.run := rfl
@[simp] theorem State.loadRun_ofsPtr (c : Byte) : (s.loadRun c).ofsPtr = s.ofsPtr := rfl
@[simp] theorem State.loadRun_pend (c : Byte) : (s.loadRun c).pend = s.pend := rfl
@[simp] theorem State.loadRun_rem (c : Byte) : (s.loadRun c).rem = remOfOffset c := rfl
@[simp] theorem State.loadRun_prev (c : Byte) : (s.loadRun c).prev = c := rfl
@[simp] theorem State.loadRun_src (c : Byte) : (s.loadRun c).src = s.src := rfl
@[simp] theorem State.loadRun_dst (c : Byte) : (s.loadRun c).dst = s.dst := rfl
@[simp] theorem State.loadRun_host (c : Byte) : (s.loadRun c).host = s.host := rfl
@[simp] theorem State.loadRun_resetIn (c : Byte) : (s.loadRun c).resetIn = s.resetIn := rfl
@[simp] theorem State.loadRun_freeCount (c : Byte) : (s.loadRun c).freeCount = s.freeCount := rfl

/-! `countDown` (R165). -/

@[simp] theorem State.countDown_sizeBits : (s.countDown).sizeBits = s.sizeBits := rfl
@[simp] theorem State.countDown_op : (s.countDown).op = s.op := rfl
@[simp] theorem State.countDown_srcLen : (s.countDown).srcLen = s.srcLen := rfl
@[simp] theorem State.countDown_dstCap : (s.countDown).dstCap = s.dstCap := rfl
@[simp] theorem State.countDown_arg : (s.countDown).arg = s.arg := rfl
@[simp] theorem State.countDown_status : (s.countDown).status = s.status := rfl
@[simp] theorem State.countDown_produced : (s.countDown).produced = s.produced := rfl
@[simp] theorem State.countDown_consumed : (s.countDown).consumed = s.consumed := rfl
@[simp] theorem State.countDown_result : (s.countDown).result = s.result := rfl
@[simp] theorem State.countDown_written : (s.countDown).written = s.written := rfl
@[simp] theorem State.countDown_phase : (s.countDown).phase = runPhase (s.rem - 0x01#8) := rfl
@[simp] theorem State.countDown_rd : (s.countDown).rd = s.rd := rfl
@[simp] theorem State.countDown_wr : (s.countDown).wr = s.wr := rfl
@[simp] theorem State.countDown_run : (s.countDown).run = s.run := rfl
@[simp] theorem State.countDown_ofsPtr : (s.countDown).ofsPtr = s.ofsPtr := rfl
@[simp] theorem State.countDown_pend : (s.countDown).pend = s.pend := rfl
@[simp] theorem State.countDown_rem : (s.countDown).rem = s.rem - 0x01#8 := rfl
@[simp] theorem State.countDown_prev : (s.countDown).prev = s.prev := rfl
@[simp] theorem State.countDown_src : (s.countDown).src = s.src := rfl
@[simp] theorem State.countDown_dst : (s.countDown).dst = s.dst := rfl
@[simp] theorem State.countDown_host : (s.countDown).host = s.host := rfl
@[simp] theorem State.countDown_resetIn : (s.countDown).resetIn = s.resetIn := rfl
@[simp] theorem State.countDown_freeCount : (s.countDown).freeCount = s.freeCount := rfl

/-! `hostAdvance` (R85). -/

@[simp] theorem State.hostAdvance_sizeBits : (s.hostAdvance).sizeBits = s.sizeBits := rfl
@[simp] theorem State.hostAdvance_op : (s.hostAdvance).op = s.op := rfl
@[simp] theorem State.hostAdvance_srcLen : (s.hostAdvance).srcLen = s.srcLen := rfl
@[simp] theorem State.hostAdvance_dstCap : (s.hostAdvance).dstCap = s.dstCap := rfl
@[simp] theorem State.hostAdvance_arg : (s.hostAdvance).arg = s.arg := rfl
@[simp] theorem State.hostAdvance_status : (s.hostAdvance).status = s.status := rfl
@[simp] theorem State.hostAdvance_produced : (s.hostAdvance).produced = s.produced := rfl
@[simp] theorem State.hostAdvance_consumed : (s.hostAdvance).consumed = s.consumed := rfl
@[simp] theorem State.hostAdvance_result : (s.hostAdvance).result = s.result := rfl
@[simp] theorem State.hostAdvance_written : (s.hostAdvance).written = s.written := rfl
@[simp] theorem State.hostAdvance_phase : (s.hostAdvance).phase = s.phase := rfl
@[simp] theorem State.hostAdvance_rd : (s.hostAdvance).rd = s.rd := rfl
@[simp] theorem State.hostAdvance_wr : (s.hostAdvance).wr = s.wr := rfl
@[simp] theorem State.hostAdvance_run : (s.hostAdvance).run = s.run := rfl
@[simp] theorem State.hostAdvance_ofsPtr : (s.hostAdvance).ofsPtr = s.ofsPtr := rfl
@[simp] theorem State.hostAdvance_pend : (s.hostAdvance).pend = s.pend := rfl
@[simp] theorem State.hostAdvance_rem : (s.hostAdvance).rem = s.rem := rfl
@[simp] theorem State.hostAdvance_prev : (s.hostAdvance).prev = s.prev := rfl
@[simp] theorem State.hostAdvance_src : (s.hostAdvance).src = s.src := rfl
@[simp] theorem State.hostAdvance_dst : (s.hostAdvance).dst = s.dst := rfl
@[simp] theorem State.hostAdvance_host : (s.hostAdvance).host = { s.host with pos := s.host.pos + 1 } := rfl
@[simp] theorem State.hostAdvance_resetIn : (s.hostAdvance).resetIn = s.resetIn := rfl
@[simp] theorem State.hostAdvance_freeCount : (s.hostAdvance).freeCount = s.freeCount := rfl

/-! `drawStreamLen` (R85). -/

@[simp] theorem State.drawStreamLen_sizeBits : (s.drawStreamLen).sizeBits = s.sizeBits := rfl
@[simp] theorem State.drawStreamLen_op : (s.drawStreamLen).op = s.op := rfl
@[simp] theorem State.drawStreamLen_srcLen : (s.drawStreamLen).srcLen = s.srcLen := rfl
@[simp] theorem State.drawStreamLen_dstCap : (s.drawStreamLen).dstCap = s.dstCap := rfl
@[simp] theorem State.drawStreamLen_arg : (s.drawStreamLen).arg = s.arg := rfl
@[simp] theorem State.drawStreamLen_status : (s.drawStreamLen).status = s.status := rfl
@[simp] theorem State.drawStreamLen_produced : (s.drawStreamLen).produced = s.produced := rfl
@[simp] theorem State.drawStreamLen_consumed : (s.drawStreamLen).consumed = s.consumed := rfl
@[simp] theorem State.drawStreamLen_result : (s.drawStreamLen).result = s.result := rfl
@[simp] theorem State.drawStreamLen_written : (s.drawStreamLen).written = s.written := rfl
@[simp] theorem State.drawStreamLen_phase : (s.drawStreamLen).phase = s.phase := rfl
@[simp] theorem State.drawStreamLen_rd : (s.drawStreamLen).rd = s.rd := rfl
@[simp] theorem State.drawStreamLen_wr : (s.drawStreamLen).wr = s.wr := rfl
@[simp] theorem State.drawStreamLen_run : (s.drawStreamLen).run = s.run := rfl
@[simp] theorem State.drawStreamLen_ofsPtr : (s.drawStreamLen).ofsPtr = s.ofsPtr := rfl
@[simp] theorem State.drawStreamLen_pend : (s.drawStreamLen).pend = s.pend := rfl
@[simp] theorem State.drawStreamLen_rem : (s.drawStreamLen).rem = s.rem := rfl
@[simp] theorem State.drawStreamLen_prev : (s.drawStreamLen).prev = s.prev := rfl
@[simp] theorem State.drawStreamLen_src : (s.drawStreamLen).src = s.src := rfl
@[simp] theorem State.drawStreamLen_dst : (s.drawStreamLen).dst = s.dst := rfl
@[simp] theorem State.drawStreamLen_host : (s.drawStreamLen).host = { s.host with streamLen := Config.freeLength s.freeCount } := rfl
@[simp] theorem State.drawStreamLen_resetIn : (s.drawStreamLen).resetIn = s.resetIn := rfl
@[simp] theorem State.drawStreamLen_freeCount : (s.drawStreamLen).freeCount = s.freeCount + 1 := rfl

/-! `pollHost` (R67). -/

@[simp] theorem State.pollHost_sizeBits : (s.pollHost).sizeBits = s.sizeBits := rfl
@[simp] theorem State.pollHost_op : (s.pollHost).op = s.op := rfl
@[simp] theorem State.pollHost_srcLen : (s.pollHost).srcLen = s.srcLen := rfl
@[simp] theorem State.pollHost_dstCap : (s.pollHost).dstCap = s.dstCap := rfl
@[simp] theorem State.pollHost_arg : (s.pollHost).arg = s.arg := rfl
@[simp] theorem State.pollHost_status : (s.pollHost).status = s.status := rfl
@[simp] theorem State.pollHost_produced : (s.pollHost).produced = s.produced := rfl
@[simp] theorem State.pollHost_consumed : (s.pollHost).consumed = s.consumed := rfl
@[simp] theorem State.pollHost_result : (s.pollHost).result = s.result := rfl
@[simp] theorem State.pollHost_written : (s.pollHost).written = s.written := rfl
@[simp] theorem State.pollHost_phase : (s.pollHost).phase = s.phase := rfl
@[simp] theorem State.pollHost_rd : (s.pollHost).rd = s.rd := rfl
@[simp] theorem State.pollHost_wr : (s.pollHost).wr = s.wr := rfl
@[simp] theorem State.pollHost_run : (s.pollHost).run = s.run := rfl
@[simp] theorem State.pollHost_ofsPtr : (s.pollHost).ofsPtr = s.ofsPtr := rfl
@[simp] theorem State.pollHost_pend : (s.pollHost).pend = s.pend := rfl
@[simp] theorem State.pollHost_rem : (s.pollHost).rem = s.rem := rfl
@[simp] theorem State.pollHost_prev : (s.pollHost).prev = s.prev := rfl
@[simp] theorem State.pollHost_src : (s.pollHost).src = s.src := rfl
@[simp] theorem State.pollHost_dst : (s.pollHost).dst = s.dst := rfl
@[simp] theorem State.pollHost_host : (s.pollHost).host = s.waitHost := rfl
@[simp] theorem State.pollHost_resetIn : (s.pollHost).resetIn = s.resetIn := rfl
@[simp] theorem State.pollHost_freeCount : (s.pollHost).freeCount = s.freeCount := rfl

/-! `hostJump` (R85). -/

@[simp] theorem State.hostJump_sizeBits (n : Nat) : (s.hostJump n).sizeBits = s.sizeBits := rfl
@[simp] theorem State.hostJump_op (n : Nat) : (s.hostJump n).op = s.op := rfl
@[simp] theorem State.hostJump_srcLen (n : Nat) : (s.hostJump n).srcLen = s.srcLen := rfl
@[simp] theorem State.hostJump_dstCap (n : Nat) : (s.hostJump n).dstCap = s.dstCap := rfl
@[simp] theorem State.hostJump_arg (n : Nat) : (s.hostJump n).arg = s.arg := rfl
@[simp] theorem State.hostJump_status (n : Nat) : (s.hostJump n).status = s.status := rfl
@[simp] theorem State.hostJump_produced (n : Nat) : (s.hostJump n).produced = s.produced := rfl
@[simp] theorem State.hostJump_consumed (n : Nat) : (s.hostJump n).consumed = s.consumed := rfl
@[simp] theorem State.hostJump_result (n : Nat) : (s.hostJump n).result = s.result := rfl
@[simp] theorem State.hostJump_written (n : Nat) : (s.hostJump n).written = s.written := rfl
@[simp] theorem State.hostJump_phase (n : Nat) : (s.hostJump n).phase = s.phase := rfl
@[simp] theorem State.hostJump_rd (n : Nat) : (s.hostJump n).rd = s.rd := rfl
@[simp] theorem State.hostJump_wr (n : Nat) : (s.hostJump n).wr = s.wr := rfl
@[simp] theorem State.hostJump_run (n : Nat) : (s.hostJump n).run = s.run := rfl
@[simp] theorem State.hostJump_ofsPtr (n : Nat) : (s.hostJump n).ofsPtr = s.ofsPtr := rfl
@[simp] theorem State.hostJump_pend (n : Nat) : (s.hostJump n).pend = s.pend := rfl
@[simp] theorem State.hostJump_rem (n : Nat) : (s.hostJump n).rem = s.rem := rfl
@[simp] theorem State.hostJump_prev (n : Nat) : (s.hostJump n).prev = s.prev := rfl
@[simp] theorem State.hostJump_src (n : Nat) : (s.hostJump n).src = s.src := rfl
@[simp] theorem State.hostJump_dst (n : Nat) : (s.hostJump n).dst = s.dst := rfl
@[simp] theorem State.hostJump_host (n : Nat) : (s.hostJump n).host = { s.host with pos := n } := rfl
@[simp] theorem State.hostJump_resetIn (n : Nat) : (s.hostJump n).resetIn = s.resetIn := rfl
@[simp] theorem State.hostJump_freeCount (n : Nat) : (s.hostJump n).freeCount = s.freeCount := rfl

end Sys2Proof.Machine
end

