-- ==== Sys2Proof/Laws/Ops.lean ====
section
/-! SUPPORT. What each shared operation can do, said once: guards, bounds checks, completion and the steps of the agents. -/

namespace Sys2Proof.Machine

open Sys2Proof

theorem State.busy_eq_true {s : State} : s.busy = true ↔ s.phase ≠ .idle := by simp [State.busy]

theorem State.busy_eq_false {s : State} : s.busy = false ↔ s.phase = .idle := by simp [State.busy]

/-! The tests of Flags.lean, as propositions. -/

@[simp] theorem State.firstOffset_iff {s : State} : s.firstOffset = true ↔ s.prev = 0x00#8 := by
  simp [State.firstOffset]

@[simp] theorem State.restoresZero_iff {s : State} : s.restoresZero = true ↔ s.prev ≠ 0x00#8 ∧ s.prev ≠ maxOffset := by
  simp [State.restoresZero]

@[simp] theorem State.runFull_iff {s : State} : s.runFull = true ↔ s.run = maxOffset := by simp [State.runFull]

@[simp] theorem State.sourceRemains_iff {s : State} : s.sourceRemains = true ↔ s.rd < s.srcLen := by
  simp [State.sourceRemains]

/-! The phase a run leaves the decoder in, and the count an offset byte loads. -/

@[simp] theorem runPhase_zero : runPhase 0x00#8 = .decAwaitOffset := rfl

theorem runPhase_of_ne {r : Byte} (h : r ≠ 0x00#8) : runPhase r = .decCopyRun := if_neg h

@[simp] theorem runPhase_eq_await {r : Byte} : runPhase r = .decAwaitOffset ↔ r = 0x00#8 := by
  unfold runPhase; split_ifs with h <;> simp [h]

@[simp] theorem runPhase_eq_copy {r : Byte} : runPhase r = .decCopyRun ↔ r ≠ 0x00#8 := by
  unfold runPhase; split_ifs with h <;> simp [h]

@[simp] theorem runPhase_ne_idle {r : Byte} : runPhase r ≠ .idle := by unfold runPhase; split_ifs <;> simp

@[simp] theorem runPhase_ne_encScan {r : Byte} : runPhase r ≠ .encScan := by unfold runPhase; split_ifs <;> simp

@[simp] theorem runPhase_ne_encFinish {r : Byte} : runPhase r ≠ .encFinish := by unfold runPhase; split_ifs <;> simp

theorem remOfOffset_eq_zero {c : Byte} : remOfOffset c = 0x00#8 ↔ c = 0x01#8 := by
  unfold remOfOffset; revert c; decide

/-- A nonzero offset byte `c` loads the count `c - 1` (R75). -/
theorem remOfOffset_toNat {c : Byte} (h : c ≠ 0x00#8) : (remOfOffset c).toNat = c.toNat - 1 := by
  unfold remOfOffset; revert c; decide

/-! The operands of a command are written, or one of them is the first that is not. -/

theorem State.firstUnwritten_estimator (s : State) :
    s.firstUnwritten estimatorOperands = if s.written.arg = true then none else some .arg := by
  cases h : s.written.arg <;> simp [State.firstUnwritten, estimatorOperands, State.isWritten, h]

theorem State.firstUnwritten_codec (s : State) :
    s.firstUnwritten codecOperands =
      if s.written.srcLen = true then if s.written.dstCap = true then none else some .dstCap else some .srcLen := by
  cases h : s.written.srcLen <;> cases h' : s.written.dstCap <;>
    simp [State.firstUnwritten, codecOperands, State.isWritten, h, h']

@[simp] theorem State.firstUnwritten_estimator_none {s : State} :
    s.firstUnwritten estimatorOperands = none ↔ s.written.arg = true := by
  rw [State.firstUnwritten_estimator]; split_ifs <;> simp [*]

@[simp] theorem State.firstUnwritten_codec_none {s : State} :
    s.firstUnwritten codecOperands = none ↔ s.written.srcLen = true ∧ s.written.dstCap = true := by
  rw [State.firstUnwritten_codec]; split_ifs <;> simp [*]

/-- The issue step runs only on an IDLE block whose operands are written, with the code latched (R81, R20). -/
theorem State.issueThen_next {s t : State} {code : Byte} {rs : List HostReg}
    {k : State → Host.Outcome State Fault Refusal} :
    s.issueThen code rs k = .next t ↔ s.phase = .idle ∧ s.firstUnwritten rs = none ∧ k (s.latchOp code) = .next t := by
  unfold State.issueThen; split_ifs with h
  · split <;> simp [*]
  · simp [h]

theorem State.issueThen_idle {s : State} (code : Byte) {rs : List HostReg}
    (k : State → Host.Outcome State Fault Refusal) (h : s.phase = .idle) (hw : s.firstUnwritten rs = none) :
    s.issueThen code rs k = k (s.latchOp code) := by
  unfold State.issueThen; rw [if_pos h, hw]

theorem State.issueThen_unwritten {s : State} (code : Byte) {rs : List HostReg} {r : HostReg}
    (k : State → Host.Outcome State Fault Refusal) (h : s.phase = .idle) (hw : s.firstUnwritten rs = some r) :
    s.issueThen code rs k = .fault (.unwrittenRegister r) := by
  unfold State.issueThen; rw [if_pos h, hw]

theorem State.issueThen_busy {s : State} (code : Byte) (rs : List HostReg)
    (k : State → Host.Outcome State Fault Refusal) (h : s.phase ≠ .idle) :
    s.issueThen code rs k = .refused .commandWhileBusy := if_neg h

/-- A class's meaning runs only in its phase, with a source byte left, and after `RD <- RD + 1` (R27, R76). -/
theorem State.readThen_next {s t : State} {ph : Phase} {ok : Bool} {k : State → State} :
    s.readThen ph ok k = .next t ↔ s.phase = ph ∧ ok = true ∧ s.rd < s.srcLen ∧ k s.advanceRd = t := by
  unfold State.readThen; split_ifs with h₁ h₂
  · simp [h₁.1, h₁.2, h₂]
  · simp [h₂]
  · simp only [false_iff]; rintro ⟨a, b, -⟩; exact h₁ ⟨a, b⟩

theorem State.readThen_eq {s : State} {ph : Phase} {ok : Bool} (k : State → State) (hp : s.phase = ph) (ho : ok = true)
    (hr : s.rd < s.srcLen) : s.readThen ph ok k = .next (k s.advanceRd) :=
  State.readThen_next.2 ⟨hp, ho, hr, rfl⟩

/-- A bounded write: either it fits and `k` goes on, or the command fails with WRITE_OVERFLOW. -/
theorem State.pushThen_cases (s : State) (v : Byte) (k : State → State) :
    (s.wr < s.dstCap ∧ s.pushThen v k = k (s.placeByte v)) ∨
      (s.dstCap ≤ s.wr ∧ s.pushThen v k = s.fail .writeOverflow 0) := by
  unfold State.pushThen; split_ifs with h
  · exact .inl ⟨h, rfl⟩
  · exact .inr ⟨Nat.le_of_not_lt h, rfl⟩

theorem State.pushThen_room {s : State} (v : Byte) (k : State → State) (h : s.wr < s.dstCap) :
    s.pushThen v k = k (s.placeByte v) := if_pos h

theorem State.pushThen_full {s : State} (v : Byte) (k : State → State) (h : s.dstCap ≤ s.wr) :
    s.pushThen v k = s.fail .writeOverflow 0 := if_neg (Nat.not_lt.2 h)

/-- A reservation: either it fits, or the command fails with WRITE_OVERFLOW. -/
theorem State.reserveSlot_cases (s : State) :
    (s.wr < s.dstCap ∧ s.reserveSlot = s.openSlot) ∨ (s.dstCap ≤ s.wr ∧ s.reserveSlot = s.fail .writeOverflow 0) := by
  unfold State.reserveSlot; split_ifs with h
  · exact .inl ⟨h, rfl⟩
  · exact .inr ⟨Nat.le_of_not_lt h, rfl⟩

theorem State.reserveSlot_room {s : State} (h : s.wr < s.dstCap) : s.reserveSlot = s.openSlot := if_pos h

theorem State.reserveSlot_full {s : State} (h : s.dstCap ≤ s.wr) : s.reserveSlot = s.fail .writeOverflow 0 :=
  if_neg (Nat.not_lt.2 h)

/-- A failure is a completion (R210, R211). -/
theorem State.fail_completed (s : State) (st : Status) (c : Nat) : (s.fail st c).Completed st c 0 0 :=
  ⟨rfl, rfl, rfl, rfl, rfl, rfl⟩

/-- A completion holds what it was given (R211). -/
theorem State.complete_completed (s : State) (st : Status) (c p r : Nat) : (s.complete st c p r).Completed st c p r :=
  ⟨rfl, rfl, rfl, rfl, rfl, rfl⟩

/-- `DST` after a failure: free draws below `DST_CAP`, unchanged above (R213). -/
theorem State.fail_dst_read (s : State) (st : Status) (c : Nat) (a : Nat) :
    (s.fail st c).dst.read a = if a < s.dstCap then some (Config.freeByte (s.freeCount + a)) else s.dst.read a := by
  rw [State.fail_dst, Memory.read_drawBelow]

/-- A failure keeps the canonical form of `DST`. -/
theorem State.fail_dst_wf {s : State} (st : Status) (c : Nat) (h : s.dst.wf = true) : (s.fail st c).dst.wf = true :=
  Memory.wf_drawBelow _ _ h

/-! The host beside the engine's step (R67). -/

@[simp] theorem State.pollHost_busy (s : State) : s.pollHost.busy = s.busy := rfl

@[simp] theorem State.pollHost_context (s : State) : s.pollHost.context = s.context := rfl

/-- The host reads `BUSY`, waits, or stands still. -/
theorem State.waitHost_cases (s : State) :
    (s.host.prog[s.host.pos]? = some (.read .busy) ∧
        s.waitHost = { s.host with pos := s.host.pos + 1, lastRead := s.regValue .busy }) ∨
      (s.host.prog[s.host.pos]? = some .wait ∧ s.waitHost = { s.host with pos := s.host.pos + 1 }) ∨
        (s.host.prog[s.host.pos]? ≠ some (.read .busy) ∧ s.host.prog[s.host.pos]? ≠ some .wait ∧ s.waitHost = s.host) := by
  unfold State.waitHost; split_ifs with h h'
  · exact .inl ⟨h, rfl⟩
  · exact .inr (.inl ⟨h', rfl⟩)
  · exact .inr (.inr ⟨h, h', rfl⟩)

@[simp] theorem State.waitHost_prog (s : State) : s.waitHost.prog = s.host.prog := by
  unfold State.waitHost; split_ifs <;> rfl

@[simp] theorem State.waitHost_streamLen (s : State) : s.waitHost.streamLen = s.host.streamLen := by
  unfold State.waitHost; split_ifs <;> rfl

/-- `DROP k` renumbers `SRC`, whatever the stream's length (R85). -/
@[simp] theorem State.hostDrop_src (s : State) (k : Nat) : (s.hostDrop k).src = s.src.shiftDown k := by
  unfold State.hostDrop; split_ifs <;> rfl

/-- `DROP k` changes nothing of the block but `SRC`. -/
theorem State.hostDrop_eq (s : State) (k : Nat) :
    s.hostDrop k =
      { s with src := s.src.shiftDown k, host := (s.hostDrop k).host, freeCount := (s.hostDrop k).freeCount } := by
  unfold State.hostDrop; split_ifs <;> rfl

/-- One step is one of: the hardware reset, the engine's, the host's; the countdown of the reset runs beside the agents. -/
theorem step_cases {s t : State} (h : step s = .next t) :
    (s.resetIn = some 0 ∧ t = s.hardReset) ∨
      ∃ s', (s.resetIn = none ∧ s' = s ∨ ∃ n, s.resetIn = some (n + 1) ∧ s' = { s with resetIn := some n }) ∧
        ((s.phase ≠ .idle ∧ engineStep s'.pollHost = .next t) ∨ (s.phase = .idle ∧ hostStep s' = .next t)) := by
  unfold step machineStep at h
  have agent : ∀ u : State, u.phase = s.phase → agentStep u = .next t →
      (s.phase ≠ .idle ∧ engineStep u.pollHost = .next t) ∨ (s.phase = .idle ∧ hostStep u = .next t) := by
    intro u hu ha
    unfold agentStep at ha
    split_ifs at ha with hb
    · exact .inl ⟨hu ▸ State.busy_eq_true.1 hb, ha⟩
    · exact .inr ⟨hu ▸ State.busy_eq_false.1 (by simpa using hb), ha⟩
  split at h
  · next hr => exact .inl ⟨hr, (Host.Outcome.next.inj h).symm⟩
  · next n hr => exact .inr ⟨_, .inr ⟨n, hr, rfl⟩, agent _ rfl h⟩
  · next hr => exact .inr ⟨s, .inl ⟨hr, rfl⟩, agent s rfl h⟩

/-- With no reset on its way, the engine has the step while `BUSY = 1`, the host at most reading `BUSY` beside it. -/
theorem step_busy {s : State} (hr : s.resetIn = none) (hb : s.phase ≠ .idle) :
    step s = engineStep s.pollHost := by
  unfold step machineStep agentStep; rw [hr]; simp [State.busy_eq_true.2 hb]

/-- With no reset on its way, the host has the step while `BUSY = 0`. -/
theorem step_idle {s : State} (hr : s.resetIn = none) (hb : s.phase = .idle) : step s = hostStep s := by
  unfold step machineStep agentStep; rw [hr]; simp [State.busy_eq_false.2 hb]

/-- The engine's step: ENC_FINISH, the end of the source, a byte run in its context, or the fault of an absent byte. -/
theorem engineStep_cases {s t : State} (hb : s.phase ≠ .idle) (h : engineStep s = .next t) :
    (s.phase = .encFinish ∧ t = s.finishEncode) ∨
      (∃ ctx, s.context = some ctx ∧ s.srcLen ≤ s.rd ∧ t = s.sourceEnd) ∨
        (∃ ctx b, s.context = some ctx ∧ s.rd < s.srcLen ∧ s.src.read s.rd = some b ∧ runByte ctx b s = .next t) := by
  unfold engineStep at h
  split at h
  · next ctx hc =>
    unfold scanStep at h
    split_ifs at h with hr
    · split at h
      · next b hsrc => exact .inr (.inr ⟨ctx, b, hc, hr, hsrc, h⟩)
      · cases h
    · exact .inr (.inl ⟨ctx, hc, Nat.le_of_not_lt hr, (Host.Outcome.next.inj h).symm⟩)
  · next hc =>
    split_ifs at h with hf
    · exact .inl ⟨hf, (Host.Outcome.next.inj h).symm⟩
    · exfalso
      unfold State.context at hc
      split at hc <;> simp_all

/-- A byte that decodes to `i` runs as `i`. -/
theorem runByte_eq {ctx : Context} {b : Byte} {i : Instr} {rest : List Byte} (h : decode ctx [b] = .instr i rest)
    (s : State) : runByte ctx b s = exec i s := by
  unfold runByte; rw [h]

end Sys2Proof.Machine
end

