-- ==== Sys2Proof/Laws/Engine.lean ====
section
/-! SUPPORT. Everything a step of the engine can do, listed once. -/

namespace Sys2Proof.Machine

open Sys2Proof

/-- A busy engine's step is one of: ENC_FINISH (R129), the end of the source (R125, R162, R165), or the class of the byte at
`SRC[RD]` (R126, R127, R163 to R165). -/
theorem engineStep_busy_cases {s t : State} (hb : s.phase ≠ .idle) (h : engineStep s = .next t) :
    (s.phase = .encFinish ∧ t = s.finishEncode) ∨
    (s.phase = .encScan ∧ s.srcLen ≤ s.rd ∧ t = s.encSourceEnd) ∨
    ((s.phase = .decAwaitOffset ∨ s.phase = .decCopyRun) ∧ s.srcLen ≤ s.rd ∧ t = s.decSourceEnd) ∨
    (s.rd < s.srcLen ∧ ∃ b, s.src.read s.rd = some b ∧
      ((s.phase = .encScan ∧ b = marker ∧ t = (s.advanceRd.finalizeSlot s.run).reserveSlot) ∨
       (s.phase = .encScan ∧ b ≠ marker ∧
          t = s.advanceRd.pushThen b fun s => if s.countRun.runFull then s.countRun.closeFullRun else s.countRun) ∨
       (s.phase = .decAwaitOffset ∧ b = marker ∧ s.prev = 0x00#8 ∧ t = s.advanceRd.fail .unexpectedZero (s.rd + 1)) ∨
       (s.phase = .decAwaitOffset ∧ b = marker ∧ s.prev ≠ 0x00#8 ∧ t = s.advanceRd.complete .ok (s.rd + 1) s.wr 0) ∨
       (s.phase = .decAwaitOffset ∧ b ≠ marker ∧ t = s.advanceRd.takeOffset b) ∨
       (s.phase = .decCopyRun ∧ b = marker ∧ t = s.advanceRd.fail .unexpectedZero (s.rd + 1)) ∨
       (s.phase = .decCopyRun ∧ b ≠ marker ∧ t = s.advanceRd.pushThen b fun s => s.countDown))) := by
  rcases engineStep_cases hb h with h | ⟨ctx, hc, hr, rfl⟩ | ⟨ctx, b, hc, hr, hs, h⟩
  · exact .inl h
  · unfold State.context at hc
    split at hc <;> cases hc
    all_goals next hp => simp [hp, hr, State.sourceEnd]
  · refine .inr (.inr (.inr ⟨hr, b, hs, ?_⟩))
    unfold State.context at hc
    split at hc <;> cases hc
    all_goals next hp =>
      by_cases hm : b = marker
      · subst hm
        try by_cases hf : s.firstOffset = true
        all_goals
          simp_all [runByte, decode, exec, execEncMarker, execDecZeroFirst, execDecTerminator, execDecZeroInRun,
            State.readThen_next]
      · try by_cases hf : s.firstOffset = true
        all_goals simp_all [runByte, decode, exec, execEncData, execDecData, State.readThen_next]
        all_goals try
          (unfold decodeOffset at h
           split_ifs at h with hx <;> simp_all [execDecFullOffset, execDecShortOffset, State.readThen_next])

/-- The same of the machine's step: the host makes its move (R67), then the engine its own. -/
theorem step_busy_cases {s t : State} (hb : s.phase ≠ .idle) (hn : s.resetIn = none) (h : step s = .next t) :
    (s.phase = .encFinish ∧ t = s.pollHost.finishEncode) ∨
    (s.phase = .encScan ∧ s.srcLen ≤ s.rd ∧ t = s.pollHost.encSourceEnd) ∨
    ((s.phase = .decAwaitOffset ∨ s.phase = .decCopyRun) ∧ s.srcLen ≤ s.rd ∧ t = s.pollHost.decSourceEnd) ∨
    (s.rd < s.srcLen ∧ ∃ b, s.src.read s.rd = some b ∧
      ((s.phase = .encScan ∧ b = marker ∧ t = (s.pollHost.advanceRd.finalizeSlot s.run).reserveSlot) ∨
       (s.phase = .encScan ∧ b ≠ marker ∧
          t = s.pollHost.advanceRd.pushThen b fun s => if s.countRun.runFull then s.countRun.closeFullRun else s.countRun) ∨
       (s.phase = .decAwaitOffset ∧ b = marker ∧ s.prev = 0x00#8 ∧ t = s.pollHost.advanceRd.fail .unexpectedZero (s.rd + 1)) ∨
       (s.phase = .decAwaitOffset ∧ b = marker ∧ s.prev ≠ 0x00#8 ∧ t = s.pollHost.advanceRd.complete .ok (s.rd + 1) s.wr 0) ∨
       (s.phase = .decAwaitOffset ∧ b ≠ marker ∧ t = s.pollHost.advanceRd.takeOffset b) ∨
       (s.phase = .decCopyRun ∧ b = marker ∧ t = s.pollHost.advanceRd.fail .unexpectedZero (s.rd + 1)) ∨
       (s.phase = .decCopyRun ∧ b ≠ marker ∧ t = s.pollHost.advanceRd.pushThen b fun s => s.countDown))) := by
  rw [step_busy hn hb] at h
  exact engineStep_busy_cases (s := s.pollHost) hb h

end Sys2Proof.Machine
end

