-- ==== Sys2Proof/Laws/PerInstr.lean ====
section
/-! SUPPORT. Facts stated per instruction. Family OneByte: every instruction is one byte long and has a context
(spec/30_encoding.md R76, R80: every field of the wire format is one byte, and a command is an 8-bit value). -/

namespace Sys2Proof.Laws.OneByte

open Sys2Proof

/-- The instruction's encoding is one byte, and some context reads it. -/
def Statement (i : Instr) : Prop := (encode i).length = 1 ∧ contexts i ≠ []

theorem maxEnc : Statement .maxEnc := ⟨rfl, List.cons_ne_nil _ _⟩

theorem maxDec : Statement .maxDec := ⟨rfl, List.cons_ne_nil _ _⟩

theorem encodeCmd : Statement .encodeCmd := ⟨rfl, List.cons_ne_nil _ _⟩

theorem decodeCmd : Statement .decodeCmd := ⟨rfl, List.cons_ne_nil _ _⟩

theorem encMarker : Statement .encMarker := ⟨rfl, List.cons_ne_nil _ _⟩

theorem encData (b : Byte) : Statement (.encData b) := ⟨rfl, List.cons_ne_nil _ _⟩

theorem decZeroFirst : Statement .decZeroFirst := ⟨rfl, List.cons_ne_nil _ _⟩

theorem decTerminator : Statement .decTerminator := ⟨rfl, List.cons_ne_nil _ _⟩

theorem decShortOffset (c : Byte) : Statement (.decShortOffset c) := ⟨rfl, List.cons_ne_nil _ _⟩

theorem decFullOffset : Statement .decFullOffset := ⟨rfl, List.cons_ne_nil _ _⟩

theorem decZeroInRun : Statement .decZeroInRun := ⟨rfl, List.cons_ne_nil _ _⟩

theorem decData (b : Byte) : Statement (.decData b) := ⟨rfl, List.cons_ne_nil _ _⟩

end Sys2Proof.Laws.OneByte
end

