-- ==== Sys2Proof/Tests/Slice0.lean ====
section
/-! SUPPORT. Tests whose expected results come from spec/ (each names its source), and a witness for the hypotheses of each
statement in Certificates/Slice0/Obligations.lean. -/

namespace Sys2Proof.Tests

open Sys2Proof Sys2Proof.Machine

/-! WellFormed refuses an ill-formed term for each of its checks (R76). -/

theorem test_wf_encData_zero : Instr.wellFormed (.encData 0x00#8) = false := by decide
theorem test_wf_decData_zero : Instr.wellFormed (.decData 0x00#8) = false := by decide
theorem test_wf_shortOffset_zero : Instr.wellFormed (.decShortOffset 0x00#8) = false := by decide
theorem test_wf_shortOffset_full : Instr.wellFormed (.decShortOffset 0xFF#8) = false := by decide
theorem test_wf_accepts :
    Instr.wellFormed (.encData 0xFF#8) = true ∧ Instr.wellFormed (.decData 0x01#8) = true ∧
      Instr.wellFormed (.decShortOffset 0xFE#8) = true := by decide

/-! Decoding: every constructor from a word written out from R76 and R80, bit by bit. -/

theorem test_decode_maxEnc : decode .command [0b00000001#8] = .instr .maxEnc [] := by decide
theorem test_decode_maxDec : decode .command [0b00000010#8] = .instr .maxDec [] := by decide
theorem test_decode_encode : decode .command [0b00000011#8] = .instr .encodeCmd [] := by decide
theorem test_decode_decode : decode .command [0b00000100#8] = .instr .decodeCmd [] := by decide
theorem test_decode_reserved :
    decode .command [0b00000000#8] = .reservedOp 0x00#8 ∧ decode .command [0b00000101#8] = .reservedOp 0x05#8 ∧
      decode .command [0b11111111#8] = .reservedOp 0xFF#8 := by decide
theorem test_decode_encMarker : decode .encScan [0b00000000#8] = .instr .encMarker [] := by decide
theorem test_decode_encData :
    decode .encScan [0b00000001#8] = .instr (.encData 0x01#8) [] ∧
      decode .encScan [0b11111111#8] = .instr (.encData 0xFF#8) [] := by decide
theorem test_decode_zeroFirst : decode .decAwaitFirst [0b00000000#8] = .instr .decZeroFirst [] := by decide
theorem test_decode_terminator : decode .decAwaitNext [0b00000000#8] = .instr .decTerminator [] := by decide
theorem test_decode_shortOffset :
    decode .decAwaitFirst [0b00000001#8] = .instr (.decShortOffset 0x01#8) [] ∧
      decode .decAwaitNext [0b11111110#8] = .instr (.decShortOffset 0xFE#8) [] := by decide
theorem test_decode_fullOffset :
    decode .decAwaitFirst [0b11111111#8] = .instr .decFullOffset [] ∧
      decode .decAwaitNext [0b11111111#8] = .instr .decFullOffset [] := by decide
theorem test_decode_zeroInRun : decode .decCopyRun [0b00000000#8] = .instr .decZeroInRun [] := by decide
theorem test_decode_decData : decode .decCopyRun [0b11111111#8] = .instr (.decData 0xFF#8) [] := by decide
theorem test_decode_no_byte : decode .encScan [] = .noByte := by decide
theorem test_tableWord :
    decodeTableWord 8 0x03 = some .encodeCmd ∧ decodeTableWord 8 0x00 = some .encMarker ∧
      decodeTableWord 8 0xFF = some .decFullOffset ∧ decodeTableWord 8 0x11 = some (.encData 0x11#8) := by decide

/-! Small states and what a test looks at. -/

/-- The state an outcome goes on to. -/
def got : Host.Outcome State Fault Refusal → Option State
  | .next s => some s
  | .fault _ => none
  | .refused _ => none

/-- The refusal an outcome stops with. -/
def refusal : Host.Outcome State Fault Refusal → Option Refusal
  | .next _ => none
  | .fault _ => none
  | .refused r => some r

/-- The fault an outcome stops with. -/
def stop : Host.Outcome State Fault Refusal → Option Fault
  | .next _ => none
  | .fault r => some r
  | .refused _ => none

/-- `STATUS`, `CONSUMED`, `PRODUCED`, `RESULT`, `PHASE`. -/
def results (s : State) : Status × Nat × Nat × Nat × Phase := (s.status, s.consumed, s.produced, s.result, s.phase)

/-- `RD`, `WR`, `RUN`, `OFS_PTR`. -/
def encoderRegs (s : State) : Nat × Nat × Byte × Nat := (s.rd, s.wr, s.run, s.ofsPtr)

/-- `RD`, `WR`, `PREV`, `REM`, `PHASE`. -/
def decoderRegs (s : State) : Nat × Nat × Byte × Byte × Phase := (s.rd, s.wr, s.prev, s.rem, s.phase)

/-- The three operand registers written. -/
def operandsWritten : Written := { op := false, srcLen := true, dstCap := true, arg := true, results := false }

/-- An IDLE block with the operands of a command record. -/
def idle (src : List Byte) (cap arg : Nat) : State :=
  { State.reset with
    srcLen := src.length, dstCap := cap, arg := arg, written := operandsWritten
    src := Memory.writeList [] 0 src }

/-- The encoder in ENC_SCAN: one slot reserved at 0, `wr - 1` data bytes after it. -/
def scanning (src : List Byte) (cap rd wr : Nat) (run : Byte) : State :=
  { idle src cap 0 with
    phase := .encScan, op := 0x03#8, written := { operandsWritten with op := true }
    rd := rd, wr := wr, run := run, pend := true }

/-- The encoder in ENC_FINISH. -/
def finishing (cap wr : Nat) (run : Byte) (pend : Bool) : State :=
  { idle [] cap 0 with
    phase := .encFinish, op := 0x03#8, written := { operandsWritten with op := true }, wr := wr, run := run, pend := pend }

/-- The decoder at an offset position. -/
def awaiting (src : List Byte) (cap rd wr : Nat) (prev : Byte) : State :=
  { idle src cap 0 with
    phase := .decAwaitOffset, op := 0x04#8, written := { operandsWritten with op := true }, rd := rd, wr := wr, prev := prev }

/-- The decoder inside a run. -/
def copying (src : List Byte) (cap rd wr : Nat) (prev rem : Byte) : State :=
  { idle src cap 0 with
    phase := .decCopyRun, op := 0x04#8, written := { operandsWritten with op := true }
    rd := rd, wr := wr, prev := prev, rem := rem }

/-- An IDLE block whose host has these statements to run. -/
def hosted (p : List HostStmt) : State := { State.reset with host := { HostAgent.none with prog := p } }

/-! One step of each instruction, against the spec's vectors and traces. -/

/-- V-M06 and V-M07: 254 gives 256, not 257; 255 gives 258. -/
theorem test_maxEnc_254 :
    (got (exec .maxEnc (idle [] 0 254))).map results = some (.ok, 0, 0, 256, .idle) ∧
      (got (exec .maxEnc (idle [] 0 255))).map results = some (.ok, 0, 0, 258, .idle) := by decide

/-- V-M12 and V-M13: with `SIZE_BITS = 16`, 65277 is the largest argument whose value fits. -/
theorem test_maxEnc_limit :
    (got (exec .maxEnc (idle [] 0 65277))).map results = some (.ok, 0, 0, 65535, .idle) ∧
      refusal (exec .maxEnc (idle [] 0 65278)) = some .resultExceedsSizeMax := by decide

/-- V-X02 and V-X05. -/
theorem test_maxDec :
    (got (exec .maxDec (idle [] 0 1))).map results = some (.ok, 0, 0, 0, .idle) ∧
      (got (exec .maxDec (idle [] 0 5))).map results = some (.ok, 0, 0, 3, .idle) := by decide

/-- Trace of V-E10, step 1. -/
theorem test_encode_issue :
    (got (exec .encodeCmd (idle [0x11#8, 0x00#8, 0x22#8] 5 0))).map
      (fun s => (s.phase, s.rd, s.wr, s.run, s.ofsPtr, s.pend)) = some (.encScan, 0, 1, 0x01#8, 0, true) := by decide

/-- V-E03: no room for slot 0. -/
theorem test_encode_no_room :
    (got (exec .encodeCmd (idle [] 0 0))).map results = some (.writeOverflow, 0, 0, 0, .idle) := by decide

/-- Trace of V-E10, step 3: the marker finalizes the slot with 2 and reserves index 2. -/
theorem test_encMarker :
    (got (exec .encMarker (scanning [0x11#8, 0x00#8, 0x22#8] 5 1 2 0x02#8))).map
      (fun s => (encoderRegs s, s.dst)) = some ((2, 3, 0x01#8, 2), [(0, 0x02#8)]) := by decide

/-- R126: no room for the next slot. -/
theorem test_encMarker_full :
    (got (exec .encMarker (scanning [0x11#8, 0x00#8] 2 1 2 0x02#8))).map results =
      some (.writeOverflow, 0, 0, 0, .idle) := by decide

/-- Trace of V-E10, step 2. -/
theorem test_encData :
    (got (exec (.encData 0x11#8) (scanning [0x11#8, 0x00#8, 0x22#8] 5 0 1 0x01#8))).map
      (fun s => (encoderRegs s, s.dst)) = some ((1, 2, 0x02#8, 0), [(1, 0x11#8)]) := by decide

/-- R127, V-E14: the 254th data byte ends the input, so the slot is finalized and no new one is reserved. -/
theorem test_encData_full_run_at_end :
    (got (exec (.encData 0x11#8) (scanning [0x11#8] 256 0 254 0xFE#8))).map
      (fun s => (s.wr, s.run, s.pend, s.dst)) = some (255, 0xFF#8, false, [(0, 0xFF#8), (254, 0x11#8)]) := by decide

/-- V-D02. -/
theorem test_decZeroFirst :
    (got (exec .decZeroFirst (awaiting [0x00#8] 8 0 0 0x00#8))).map results =
      some (.unexpectedZero, 1, 0, 0, .idle) := by decide

/-- Trace of V-D07, step 6: no zero restored before the terminator. -/
theorem test_decTerminator :
    (got (exec .decTerminator (awaiting [0x02#8, 0x11#8, 0x02#8, 0x22#8, 0x00#8] 3 4 3 0x02#8))).map
      (fun s => (results s, s.dst)) = some ((.ok, 5, 3, 0, .idle), []) := by decide

/-- Trace of V-D07, step 4: the elided zero is restored. -/
theorem test_decShortOffset_restores :
    (got (exec (.decShortOffset 0x02#8) (awaiting [0x02#8, 0x11#8, 0x02#8] 3 2 1 0x02#8))).map
      (fun s => (decoderRegs s, s.dst)) = some ((3, 2, 0x02#8, 0x01#8, .decCopyRun), [(1, 0x00#8)]) := by decide

/-- V-D05: the restored zero does not fit. -/
theorem test_decShortOffset_full :
    (got (exec (.decShortOffset 0x01#8) (awaiting [0x01#8, 0x01#8] 0 1 0 0x01#8))).map results =
      some (.writeOverflow, 0, 0, 0, .idle) := by decide

/-- R164: offset 0xFF loads 254 and, after a full run, restores nothing. -/
theorem test_decFullOffset :
    (got (exec .decFullOffset (awaiting [0xFF#8, 0xFF#8] 3 1 2 0xFF#8))).map
      (fun s => (decoderRegs s, s.dst)) = some ((2, 2, 0xFF#8, 0xFE#8, .decCopyRun), []) := by decide

/-- V-D11: the zero is classed before any write check. -/
theorem test_decZeroInRun :
    (got (exec .decZeroInRun (copying [0x03#8, 0x00#8, 0x11#8] 0 1 0 0x03#8 0x02#8))).map results =
      some (.unexpectedZero, 2, 0, 0, .idle) := by decide

/-- Trace of V-D07, step 3: the run's last byte. -/
theorem test_decData :
    (got (exec (.decData 0x11#8) (copying [0x02#8, 0x11#8] 3 1 0 0x02#8 0x01#8))).map
      (fun s => (decoderRegs s, s.dst)) = some ((2, 1, 0x02#8, 0x00#8, .decAwaitOffset), [(0, 0x11#8)]) := by decide

/-- V-D10: the data byte does not fit. -/
theorem test_decData_full :
    (got (exec (.decData 0x11#8) (copying [0x03#8, 0x11#8, 0x00#8] 0 1 0 0x03#8 0x02#8))).map results =
      some (.writeOverflow, 0, 0, 0, .idle) := by decide

/-- Trace of V-E10, steps 5 and 6. -/
theorem test_encFinish :
    (got (step { scanning [] 5 0 4 0x02#8 with ofsPtr := 2 })).map (·.phase) = some .encFinish ∧
      (got (step { finishing 5 4 0x02#8 true with ofsPtr := 2 })).map (fun s => (results s, s.dst)) =
        some ((.ok, 0, 5, 0, .idle), [(2, 0x02#8), (4, 0x00#8)]) := by decide

/-- V-D01: the source ends at an offset position. -/
theorem test_decSourceEnd :
    (got (step (awaiting [] 8 0 0 0x00#8))).map results = some (.readOverflow, 0, 0, 0, .idle) := by decide

/-- R82: a reserved code, and a command while `BUSY = 1`. -/
theorem test_refusals :
    refusal (step (hosted [.write .op (.lit 5)])) = some (.reservedOp 0x05#8) ∧
      refusal (exec .decodeCmd (copying [] 0 0 0 0x02#8 0x01#8)) = some .commandWhileBusy := by decide

/-- U15: a host read before the first completion; R20: `STATUS` is read-only. -/
theorem test_host_registers :
    stop (step (hosted [.read .result])) = some (.unwrittenRegister .result) ∧
      refusal (step (hosted [.write .status (.lit 0)])) = some (.readOnlyRegister .status) := by decide

/-- R20, R80: an operand register that nothing has written since reset faults at the issue step. -/
theorem test_unwritten_operand :
    stop (exec .maxEnc State.reset) = some (.unwrittenRegister .arg) ∧
      stop (step (hosted [.write .srcLen (.lit 1), .write .op (.lit 4)])) = none ∧
      stop (exec .decodeCmd { State.reset with written := { Written.none with srcLen := true } }) =
        some (.unwrittenRegister .dstCap) := by decide

/-- R67 "wait": a read of `BUSY` beside the engine's step gives 1, and another statement waits. -/
theorem test_poll :
    (got (step { scanning [0x11#8] 2 0 1 0x01#8 with host := { HostAgent.none with prog := [.read .busy] } })).map
        (fun s => (s.host.pos, s.host.lastRead, s.rd)) = some (1, 1, 1) ∧
      (got (step { scanning [0x11#8] 2 0 1 0x01#8 with host := { HostAgent.none with prog := [.read .status] } })).map
        (fun s => (s.host.pos, s.rd)) = some (0, 1) := by decide

/-- R85, program P2: `DROP 3` of a stream of six; and a drop past the stream's end still moves the bytes of `SRC`. -/
theorem test_drop :
    (got (step
        { hosted [.drop (.lit 3)] with
          src := Memory.writeList [] 0 [0x03#8, 0x11#8, 0x00#8, 0x02#8, 0x22#8, 0x00#8]
          host := { HostAgent.none with prog := [.drop (.lit 3)], streamLen := 6 } })).map
        (fun s => (s.src, s.host.streamLen)) = some ([(0, 0x02#8), (1, 0x22#8), (2, 0x00#8)], 3) ∧
      (got (step { hosted [.drop (.lit 1)] with src := [(0, 0x11#8), (1, 0x22#8)] })).map (·.src) = some [(0, 0x22#8)] := by
  decide

/-- R67 "set up" and "collect": the host writes a byte of `DST` and reads it back. -/
theorem test_host_dst :
    (got (step (hosted [.store .dst 7 [0xEE#8]]))).map (·.dst) = some [(7, 0xEE#8)] ∧
      (got (step { hosted [.fetch .dst 7] with dst := [(7, 0xEE#8)] })).map (·.host.lastRead) = some 0xEE ∧
      stop (step (hosted [.fetch .dst 7])) = some (.destinationByteAbsent 7) ∧
      stop (step { hosted [.move 0 2] with dst := [(0, 0x11#8)] }) = some (.destinationByteAbsent 1) := by decide

/-- The first word after reset runs: a command, a source byte of the encoder, an offset byte of the decoder. -/
theorem test_withFetchWord :
    (got (step (State.reset.withFetchWord 8 0x02))).map results = some (.ok, 0, 0, 0, .idle) ∧
      (got (step (State.reset.withFetchWord 8 0x00))).map (·.phase) = some .encScan ∧
      (got (step (State.reset.withFetchWord 8 0xFF))).map (·.rem) = some 0xFE#8 := by decide

/-- V-E09, V-D07, R72 and V-M02 on the whole-operation functions. -/
theorem test_functions :
    cobsEncodeBytes [0x11#8, 0x22#8, 0x00#8, 0x33#8] = [0x03#8, 0x11#8, 0x22#8, 0x02#8, 0x33#8, 0x00#8] ∧
      cobsDecode [0x02#8, 0x11#8, 0x02#8, 0x22#8, 0x00#8] 3 = ⟨.ok, 5, 3, [0x11#8, 0x00#8, 0x22#8]⟩ ∧
      decodedOf [[0x11#8], [0x22#8]] = [0x11#8, 0x00#8, 0x22#8] ∧ maxEncodedLength 1 = 3 := by decide

/-- V-D16 as corrected by C3: no zero in the input, so READ_OVERFLOW. -/
theorem test_decode_no_zero : (cobsDecode [0x02#8, 0x01#8, 0x02#8] 2).status = .readOverflow := by decide

/-! Witnesses: for each statement with hypotheses, a state and operands that meet them, clause by clause. -/

theorem witness_HardResetLeavesIdleAndUnwritten :
    ({ idle [] 0 0 with resetIn := some 0 } : State).resetIn = some 0 ∧ (idle [] 0 0).phase = .idle := by decide

theorem witness_ResetWhileBusyAbandonsCommand :
    (copying [0x02#8] 3 1 0 0x02#8 0x01#8).phase ≠ .idle ∧
      ({ copying [0x02#8] 3 1 0 0x02#8 0x01#8 with resetIn := some 0 } : State).resetIn = some 0 := by decide

/-- The parts of the invariant that are decided by evaluation, for the witnesses below. -/
theorem inv_of_parts {s : State} (hm : s.src.wf = true ∧ s.dst.wf = true) (hz : s.SizesFit) (ho : s.OpLegal)
    (he : s.EncoderInv) (hd : s.DecoderInv) (hw : s.OperandsWritten) : s.Inv := ⟨hm.1, hm.2, hz, ho, he, hd, hw⟩

theorem witness_inv_scanning : (scanning [0x11#8, 0x00#8] 5 0 1 0x01#8).Inv :=
  inv_of_parts (by decide) (by unfold State.SizesFit; decide) (by unfold State.OpLegal; decide)
    (by unfold State.EncoderInv; decide) (by unfold State.DecoderInv; decide) (by unfold State.OperandsWritten; decide)

theorem witness_inv_copying : (copying [0x02#8, 0x11#8] 3 1 0 0x02#8 0x01#8).Inv :=
  inv_of_parts (by decide) (by unfold State.SizesFit; decide) (by unfold State.OpLegal; decide)
    (by unfold State.EncoderInv; decide) (by unfold State.DecoderInv; decide) (by unfold State.OperandsWritten; decide)

theorem witness_inv_finishing : (finishing 2 1 0x01#8 true).Inv ∧ (finishing 1 1 0x01#8 true).Inv :=
  ⟨inv_of_parts (by decide) (by unfold State.SizesFit; decide) (by unfold State.OpLegal; decide)
    (by unfold State.EncoderInv; decide) (by unfold State.DecoderInv; decide) (by unfold State.OperandsWritten; decide),
   inv_of_parts (by decide) (by unfold State.SizesFit; decide) (by unfold State.OpLegal; decide)
    (by unfold State.EncoderInv; decide) (by unfold State.DecoderInv; decide) (by unfold State.OperandsWritten; decide)⟩

/-- A running encoder and a running decoder meet the invariant, and they step. -/
theorem witness_StepKeepsInvariant :
    ((scanning [0x11#8, 0x00#8] 5 0 1 0x01#8).Inv ∧ (got (step (scanning [0x11#8, 0x00#8] 5 0 1 0x01#8))).isSome) ∧
      (copying [0x02#8, 0x11#8] 3 1 0 0x02#8 0x01#8).Inv ∧
      (got (step (copying [0x02#8, 0x11#8] 3 1 0 0x02#8 0x01#8))).isSome :=
  ⟨⟨witness_inv_scanning, by decide⟩, witness_inv_copying, by decide⟩

/-- Both clauses of MAXENC at the limit of a 16-bit size (V-M12, V-M13). -/
theorem witness_MaxEncReturnsMaxEncodedLength :
    (idle [] 0 65277).phase = .idle ∧ (idle [] 0 65277).written.arg = true ∧ 65277 + 1 + max 1 ((65277 + 253) / 254) ≤ sizeMax (idle [] 0 65277).sizeBits ∧
      sizeMax (idle [] 0 65278).sizeBits < 65278 + 1 + max 1 ((65278 + 253) / 254) := by decide

theorem witness_MaxDecReturnsMaxDecodedLength :
    (idle [] 0 1).phase = .idle ∧ (idle [] 0 1).written.arg = true ∧ (idle [] 0 1).arg < 2 ∧ 2 ≤ (idle [] 0 2).arg := by decide

theorem witness_EstimatorFrame :
    (got (exec .maxEnc (idle [] 0 0))).isSome ∧ (got (exec .maxDec (idle [] 0 0))).isSome ∧
      (idle [] 0 3).arg = (idle [0x11#8] 7 3).arg ∧ (idle [] 0 3).sizeBits = (idle [0x11#8] 7 3).sizeBits ∧
      (got (exec .maxEnc (idle [0x11#8] 7 3))).isSome := by decide

theorem witness_UnwrittenOperandFaults :
    State.reset.phase = .idle ∧ State.reset.written.arg = false ∧ State.reset.written.srcLen = false ∧
      ({ State.reset with written := { Written.none with srcLen := true } } : State).written.dstCap = false := by decide

theorem witness_EncodeIssueStep :
    ((idle [] 0 0).written.srcLen = true ∧ (idle [] 0 0).written.dstCap = true) ∧ (idle [] 0 0).phase = .idle ∧ (idle [] 0 0).dstCap = 0 ∧ (idle [] 1 0).phase = .idle ∧ (idle [] 1 0).dstCap ≠ 0 := by
  decide

theorem witness_EncMarkerStep :
    (scanning [0x00#8] 1 0 1 0x01#8).phase = .encScan ∧ (scanning [0x00#8] 1 0 1 0x01#8).rd < 1 ∧
      (scanning [0x00#8] 1 0 1 0x01#8).srcLen = 1 ∧ (scanning [0x00#8] 1 0 1 0x01#8).dstCap ≤ 1 ∧
      (scanning [0x00#8] 2 0 1 0x01#8).wr < (scanning [0x00#8] 2 0 1 0x01#8).dstCap ∧
      (scanning [0x00#8] 2 0 1 0x01#8).EncoderInv := by
  unfold State.EncoderInv; decide

/-- The five clauses of R127: no room, a data byte, a full run with and without room for the next slot, a full run at the end. -/
theorem witness_EncDataStep :
    ((scanning [0x11#8] 1 0 1 0x01#8).phase = .encScan ∧ 0 < (scanning [0x11#8] 1 0 1 0x01#8).srcLen ∧
      (0x11#8 : Byte) ≠ marker ∧ (scanning [0x11#8] 1 0 1 0x01#8).dstCap ≤ 1) ∧
    (1 < (scanning [0x11#8] 2 0 1 0xFD#8).dstCap ∧ (0xFD#8 : Byte) + 1 ≠ maxOffset) ∧
    ((0xFE#8 : Byte) + 1 = maxOffset ∧ 254 < (scanning [0x11#8, 0x11#8] 255 0 254 0xFE#8).dstCap ∧
      0 + 1 < (scanning [0x11#8, 0x11#8] 255 0 254 0xFE#8).srcLen ∧
      (scanning [0x11#8, 0x11#8] 255 0 254 0xFE#8).dstCap ≤ 254 + 1) ∧
    254 + 1 < (scanning [0x11#8, 0x11#8] 256 0 254 0xFE#8).dstCap ∧
    (scanning [0x11#8] 255 0 254 0xFE#8).srcLen ≤ 0 + 1 := by decide

theorem witness_EncScanSourceEndStep :
    (scanning [0x11#8] 3 1 2 0x02#8).phase = .encScan ∧ (scanning [0x11#8] 3 1 2 0x02#8).resetIn = none ∧
      (scanning [0x11#8] 3 1 2 0x02#8).rd = (scanning [0x11#8] 3 1 2 0x02#8).srcLen := by decide

theorem witness_EncFinishStep :
    (finishing 2 1 0x01#8 true).phase = .encFinish ∧ (finishing 2 1 0x01#8 true).resetIn = none ∧
      1 < (finishing 2 1 0x01#8 true).dstCap ∧ (finishing 1 1 0x01#8 true).dstCap ≤ 1 ∧
      (finishing 2 1 0xFF#8 false).pend = false := by decide

/-- Both ends of ENC.MARKER's frame: the command runs on, and it fails. -/
theorem witness_EncMarkerFrame :
    (got (exec .encMarker (scanning [0x00#8] 2 0 1 0x01#8))).map (·.phase) = some .encScan ∧
      (got (exec .encMarker (scanning [0x00#8] 1 0 1 0x01#8))).map (·.phase) = some .idle := by decide

/-- ENC.DATA's frame: a data byte, a full run, a failure. -/
theorem witness_EncDataFrame :
    (got (exec (.encData 0x11#8) (scanning [0x11#8] 2 0 1 0x01#8))).map (·.phase) = some .encScan ∧
      (got (exec (.encData 0x11#8) (scanning [0x11#8] 255 0 254 0xFE#8))).map (·.phase) = some .encScan ∧
      (got (exec (.encData 0x11#8) (scanning [0x11#8] 1 0 1 0x01#8))).map (·.phase) = some .idle := by decide

theorem witness_DecodeIssueStep :
    (idle [] 0 0).phase = .idle ∧ (idle [] 0 0).written.srcLen = true ∧ (idle [] 0 0).written.dstCap = true := by decide

theorem witness_DecAwaitSourceEndStep :
    (awaiting [] 0 0 0 0x00#8).phase = .decAwaitOffset ∧ (awaiting [] 0 0 0 0x00#8).resetIn = none ∧
      (awaiting [] 0 0 0 0x00#8).srcLen ≤ (awaiting [] 0 0 0 0x00#8).rd := by decide

theorem witness_DecZeroAtOffsetStep :
    (awaiting [0x00#8] 0 0 0 0x00#8).phase = .decAwaitOffset ∧ 0 < (awaiting [0x00#8] 0 0 0 0x00#8).srcLen ∧
      (awaiting [0x00#8] 0 0 0 0x00#8).prev = 0x00#8 ∧ (awaiting [0x00#8] 0 0 0 0x00#8).DecoderInv ∧
      1 < (awaiting [0x01#8, 0x00#8] 0 1 0 0x01#8).srcLen ∧ (awaiting [0x01#8, 0x00#8] 0 1 0 0x01#8).prev ≠ 0x00#8 := by
  unfold State.DecoderInv; decide

/-- R164's clauses: a previous run short with no room and with room, the first offset, and a previous run full. -/
theorem witness_DecOffsetStep :
    ((awaiting [0x01#8, 0x01#8] 0 1 0 0x01#8).phase = .decAwaitOffset ∧
      1 < (awaiting [0x01#8, 0x01#8] 0 1 0 0x01#8).srcLen ∧ (0x01#8 : Byte) ≠ marker ∧
      (awaiting [0x01#8, 0x01#8] 0 1 0 0x01#8).prev ≠ 0x00#8 ∧
      (awaiting [0x01#8, 0x01#8] 0 1 0 0x01#8).prev ≠ maxOffset ∧ (awaiting [0x01#8, 0x01#8] 0 1 0 0x01#8).dstCap ≤ 0) ∧
    (awaiting [0x01#8, 0xFF#8] 1 1 0 0xFE#8).wr < (awaiting [0x01#8, 0xFF#8] 1 1 0 0xFE#8).dstCap ∧
    (awaiting [0x01#8] 0 0 0 0x00#8).prev = 0x00#8 ∧ (awaiting [0xFF#8] 0 0 0 0xFF#8).prev = maxOffset := by decide

theorem witness_DecCopyRunStep :
    (copying [0x02#8] 0 1 0 0x02#8 0x01#8).DecoderInv ∧ (copying [0x02#8] 0 1 0 0x02#8 0x01#8).phase = .decCopyRun ∧ (copying [0x02#8] 0 1 0 0x02#8 0x01#8).resetIn = none ∧
      (copying [0x02#8] 0 1 0 0x02#8 0x01#8).srcLen ≤ 1 ∧ 1 < (copying [0x02#8, 0x11#8] 0 1 0 0x02#8 0x01#8).srcLen ∧
      (0x11#8 : Byte) ≠ marker ∧ (copying [0x02#8, 0x11#8] 0 1 0 0x02#8 0x01#8).dstCap ≤ 0 ∧
      0 < (copying [0x02#8, 0x11#8] 1 1 0 0x02#8 0x01#8).dstCap := by
  unfold State.DecoderInv; decide

/-- A full `DST` with the source ended, a zero and a data byte inside a run, and each case at an offset position. -/
theorem witness_DecoderCheckOrder :
    ((copying [0x03#8] 0 1 0 0x03#8 0x02#8).resetIn = none ∧ (copying [0x03#8] 0 1 0 0x03#8 0x02#8).dstCap ≤ 0 ∧
      (copying [0x03#8] 0 1 0 0x03#8 0x02#8).srcLen ≤ 1) ∧
    (copying [0x03#8, 0x00#8] 0 1 0 0x03#8 0x02#8).src.read 1 = some marker ∧
    (copying [0x03#8, 0x11#8] 0 1 0 0x03#8 0x02#8).src.read 1 = some 0x11#8 ∧
    (awaiting [0x00#8] 0 0 0 0x00#8).src.read 0 = some marker ∧ (awaiting [0x00#8] 0 0 0 0x00#8).prev = 0x00#8 ∧
    (awaiting [0x01#8, 0x00#8] 0 1 0 0x01#8).src.read 1 = some marker ∧
    (awaiting [0x01#8, 0x00#8] 0 1 0 0x01#8).prev ≠ 0x00#8 ∧
    (awaiting [0x01#8, 0x01#8] 0 1 0 0x01#8).src.read 1 = some 0x01#8 ∧
    (awaiting [0x01#8, 0x01#8] 0 1 0 0x01#8).prev ≠ maxOffset := by decide

theorem witness_DecOffsetFrame :
    (got (exec (.decShortOffset 0x01#8) (awaiting [0x01#8, 0x01#8] 1 1 0 0x01#8))).map (·.phase) = some .decAwaitOffset ∧
      (got (exec .decFullOffset (awaiting [0xFF#8] 0 0 0 0x00#8))).map (·.phase) = some .decCopyRun ∧
      (got (exec (.decShortOffset 0x01#8) (awaiting [0x01#8, 0x01#8] 0 1 0 0x01#8))).map (·.phase) = some .idle := by decide

theorem witness_DecDataFrame :
    (got (exec (.decData 0x11#8) (copying [0x02#8, 0x11#8] 1 1 0 0x02#8 0x01#8))).map (·.phase) = some .decAwaitOffset ∧
      (got (exec (.decData 0x11#8) (copying [0x02#8, 0x11#8] 0 1 0 0x02#8 0x01#8))).map (·.phase) = some .idle := by decide

theorem witness_DecCompletionFrame :
    (got (exec .decZeroFirst (awaiting [0x00#8] 1 0 0 0x00#8))).isSome ∧
      (got (exec .decTerminator (awaiting [0x01#8, 0x00#8] 1 1 0 0x01#8))).isSome ∧
      (got (exec .decZeroInRun (copying [0x02#8, 0x00#8] 1 1 0 0x02#8 0x01#8))).isSome := by decide

theorem witness_IssueStepFrame :
    (got (exec .encodeCmd (idle [] 1 0))).map (·.phase) = some .encScan ∧
      (got (exec .encodeCmd (idle [] 0 0))).map (·.phase) = some .idle ∧
      (got (exec .decodeCmd (idle [] 0 0))).map (·.phase) = some .decAwaitOffset := by decide

/-- A step that runs on, a completion with OK and one with a failure, of a busy engine that meets the invariant. Used for
EngineStepCompletesAtMostOnce, EngineStepKeepsOperands, EngineWritesInsideCapacity, FailureLeavesDstUnspecified and the last
clause of CommandsCompleteWithinTheirBounds. -/
theorem witness_EngineSteps :
    ((scanning [0x11#8, 0x00#8] 5 0 1 0x01#8).Inv ∧ (finishing 2 1 0x01#8 true).Inv ∧ (finishing 1 1 0x01#8 true).Inv) ∧
      ((finishing 1 1 0x01#8 true).phase ≠ .idle ∧ (finishing 1 1 0x01#8 true).resetIn = none) ∧
      (got (step (scanning [0x11#8, 0x00#8] 5 0 1 0x01#8))).map (·.phase) = some .encScan ∧
      (got (step (finishing 2 1 0x01#8 true))).map (·.status) = some .ok ∧
      (got (step (finishing 1 1 0x01#8 true))).map results = some (.writeOverflow, 0, 0, 0, .idle) :=
  ⟨⟨witness_inv_scanning, witness_inv_finishing⟩, by decide, by decide, by decide, by decide⟩

theorem witness_IdleBlockTakesNoStep :
    (idle [] 0 0).phase = .idle ∧ (idle [] 0 0).resetIn = none ∧ (idle [] 0 0).host.prog.length ≤ 0 := by decide

theorem witness_WireClassesAreTotalAndDisjoint :
    (0x01#8 : Byte) ≠ marker ∧ (0xFE#8 : Byte) ≠ marker ∧ (0xFE#8 : Byte) ≠ maxOffset ∧
      (scanning [] 1 0 1 0x01#8).phase = .encScan ∧ (awaiting [] 1 0 0 0x00#8).prev = 0x00#8 ∧
      (awaiting [] 1 1 0 0x01#8).prev ≠ 0x00#8 ∧ Context.encScan ≠ .command := by decide

theorem witness_DecodeOfEncodeIsTheInstruction :
    Instr.wellFormed (.decShortOffset 0xFE#8) = true ∧ Context.decAwaitNext ∈ contexts (.decShortOffset 0xFE#8) ∧
      Context.command ∈ contexts .maxEnc := by decide

theorem witness_ReservedOpAndBusyIssueRefused :
    (hosted [.write .op (.lit 5)]).host.prog[0]? = some (.write .op (.lit 5)) ∧
      (hosted [.write .op (.lit 5)]).hostVal (.lit 5) = some (0x05#8 : Byte).toNat ∧
      (hosted [.write .op (.lit 0)]).host.prog[0]? = some (.write .op (.lit 0)) ∧
      (hosted [.write .op (.lit 0)]).hostVal (.lit 0) = some (0x00#8 : Byte).toNat ∧ 5 ≤ (0x05#8 : Byte).toNat ∧ Context.command ∈ contexts .encodeCmd ∧ (finishing 1 1 0x01#8 true).phase ≠ .idle := by
  decide

/-- The host's `OP` write (a number and `RESULT`), a byte of the source, and a reset still counting down. -/
theorem witness_StepRunsDecodedInstruction :
    ((hosted [.write .op (.lit 4)]).host.prog[0]? = some (.write .op (.lit 4)) ∧
      (hosted [.write .op (.lit 4)]).hostVal (.lit 4) = some (0x04#8 : Byte).toNat ∧
      decode .command [0x04#8] = .instr .decodeCmd []) ∧
    ((copying [0x02#8, 0x11#8] 1 1 0 0x02#8 0x01#8).context = some .decCopyRun ∧
      1 < (copying [0x02#8, 0x11#8] 1 1 0 0x02#8 0x01#8).srcLen ∧
      (copying [0x02#8, 0x11#8] 1 1 0 0x02#8 0x01#8).src.read 1 = some 0x11#8 ∧
      decode .decCopyRun [0x11#8] = .instr (.decData 0x11#8) []) ∧
    ({ idle [] 0 0 with resetIn := some 1 } : State).resetIn = some (0 + 1) ∧
    ({ idle [] 0 0 with resetIn := some 0 } : State).resetIn = some 0 := by decide

theorem witness_HostReadOfUnwrittenRegisterFaults :
    (hosted [.read .status]).host.prog[0]? = some (.read .status) ∧ (hosted [.read .status]).isWritten .status = false ∧
      (hosted [.read .busy]).isWritten .busy = true ∧ (hosted [.drop .result]).written.results = false ∧
      (hosted [.drop .result]).host.prog[0]? = some (.drop .result) ∧
      (hosted [.write .arg .result]).host.prog[0]? = some (.write .arg .result) ∧
      (hosted [.ifStatus .ok 0]).host.prog[0]? = some (.ifStatus .ok 0) := by decide

theorem witness_CommandRecordIssuesCommand :
    (hosted (commandRecord 0x04#8 (.lit 5) .result (.lit 65535) ++ [.read .status])).host.prog.drop 0 =
        commandRecord 0x04#8 (.lit 5) .result (.lit 65535) ++ [.read .status] ∧
      ({ hosted [] with result := 3, written := { Written.none with results := true } } : State).hostVal .result = some 3 ∧
      65535 ≤ sizeMax State.reset.sizeBits ∧ decode .command [0x04#8] = .instr .decodeCmd [] := by decide

theorem witness_HostBufferMoves :
    (hosted [.load [0x11#8]]).host.prog[0]? = some (.load [0x11#8]) ∧
      ({ hosted [.move 0 1] with dst := [(0, 0x22#8)] } : State).dst.bytesAt 0 (1 - 0) = some [0x22#8] ∧
      (({ hosted [.move 0 2] with dst := [(0, 0x11#8)] } : State).dst.read 1 = none ∧
        (({ hosted [.move 0 2] with dst := [(0, 0x11#8)] } : State).dst.read 0).isSome) ∧
      ({ hosted [] with host := { HostAgent.none with prog := [.drop (.lit 2)], streamLen := 2 } } : State).host.streamLen =
        2 ∧
      (hosted [.drop (.lit 2)]).hostVal (.lit 2) = some 2 ∧ (hosted [.drop (.lit 2)]).host.streamLen < 2 ∧
      (hosted [.append [0x33#8]]).host.prog[0]? = some (.append [0x33#8]) := by decide

theorem witness_HostTouchesBuffers :
    (hosted [.store .src 0 [0x11#8]]).host.prog[0]? = some (.store .src 0 [0x11#8]) ∧
      (hosted [.store .dst 7 [0x11#8]]).host.prog[0]? = some (.store .dst 7 [0x11#8]) ∧
      (hosted [.fetch .src 0]).src.read 0 = none ∧
      ({ hosted [.fetch .dst 7] with dst := [(7, 0x11#8)] } : State).dst.read 7 = some 0x11#8 := by decide

theorem witness_HostMovesWhileBusy :
    ({ scanning [] 1 0 1 0x01#8 with host := { HostAgent.none with prog := [.read .busy, .wait] } } : State).host.prog[0]? =
        some (.read .busy) ∧
      (scanning [] 1 0 1 0x01#8).phase ≠ .idle ∧ (got (step (scanning [] 1 0 1 0x01#8))).isSome := by decide

theorem witness_InstancesAreIndependent :
    (0 : Nat) ≠ 1 ∧ (got (step (awaiting [] 0 0 0 0x00#8))).isSome ∧ (got (step (idle [] 0 0))).isSome ∧
      [awaiting [] 0 0 0 0x00#8, idle [] 0 0][1]? = some (idle [] 0 0) := by decide

/-- A block ready with a source, with exactly the room of its packet and with one byte less. Used for EncodeMeetsItsContract,
DecodeMeetsItsFunction, CommandsCompleteWithinTheirBounds and OutcomeDependsOnlyOnOperands. -/
theorem witness_WholeCommands :
    (idle [0x11#8, 0x00#8] 4 0).Ready [0x11#8, 0x00#8] ∧
      (cobsEncodeBytes [0x11#8, 0x00#8]).length ≤ (idle [0x11#8, 0x00#8] 4 0).dstCap ∧
      (idle [0x11#8, 0x00#8] 3 0).dstCap < (cobsEncodeBytes [0x11#8, 0x00#8]).length ∧
      (idle [0x01#8, 0x00#8] 0 0).Ready [0x01#8, 0x00#8] ∧ (cobsDecode [0x01#8, 0x00#8] 0).status = .ok ∧
      (cobsDecode [0x00#8] 0).status ≠ .ok ∧ (idle [0x11#8, 0x00#8] 4 9).Ready [0x11#8, 0x00#8] := by
  unfold State.Ready; decide

theorem witness_EncodeCapacityIsExact :
    (idle [0x11#8, 0x22#8] 4 0).Ready [0x11#8, 0x22#8] ∧ (idle [0x11#8, 0x22#8] 4 0).dstCap = maxEncodedLength 2 ∧
      (idle [0x11#8, 0x22#8] 3 0).dstCap = maxEncodedLength 2 - 1 ∧ marker ∉ [0x11#8, 0x22#8] := by
  unfold State.Ready; decide

theorem witness_BoundaryPackets : (0x11#8 : Byte) ≠ marker := by decide

theorem witness_EmptyInputEncodesToTwoBytes :
    (idle [] 2 0).phase = .idle ∧ (idle [] 2 0).resetIn = none ∧ (idle [] 2 0).written = operandsWritten ∧
      (idle [] 2 0).srcLen = 0 ∧ 2 ≤ (idle [] 2 0).dstCap ∧
      (idle [] 1 0).dstCap ≤ 1 := by decide

theorem witness_CanonicalPacketProperties : ([0x11#8] : List Byte).count marker = 0 := by decide

theorem witness_DecodeOfEncodeIsTheInput :
    ([0x11#8] : List Byte).length ≤ 1 ∧ 0 < ([0x11#8] : List Byte).length := by decide

theorem witness_MachineRoundTrip :
    (idle [0x11#8] 3 0).Ready [0x11#8] ∧ maxEncodedLength ([0x11#8] : List Byte).length ≤ (idle [0x11#8] 3 0).dstCap ∧
      (idle [0x02#8, 0x11#8, 0x00#8] 1 0).Ready [0x02#8, 0x11#8, 0x00#8] ∧
      (idle [0x02#8, 0x11#8, 0x00#8] 1 0).srcLen = ([0x02#8, 0x11#8, 0x00#8] : List Byte).length := by
  unfold State.Ready; decide

/-- A run list that the encoder never writes (an empty run before the terminator after `[0x11]`), and an OK outcome. -/
theorem witness_DecodeAcceptsExactlyPackets :
    IsRunList [[0x11#8], []] ∧ (decodedOf [[0x11#8], []]).length ≤ 2 ∧ (cobsDecode [0x01#8, 0x00#8] 0).status = .ok := by
  unfold IsRunList IsRunData; decide

theorem witness_CapacityDecidesTheOutcome :
    (cobsDecode [0x02#8, 0x11#8, 0x00#8] 3).written.length ≤ 1 ∧ 0 < (cobsDecode [0x02#8, 0x11#8, 0x00#8] 3).written.length := by
  decide

theorem witness_ReadOverflowIsAProperBeginning :
    ([0x02#8] : List Byte).length ≤ 1 ∧ (cobsDecode [0x02#8] 1).status = .readOverflow ∧
      [0x02#8] ++ [0x11#8, 0x00#8] = packetOf [[0x11#8]] := by decide

theorem witness_MaxDecodedLengthSuffices :
    (cobsDecode [0x02#8, 0x11#8, 0x00#8] 9).status = .ok ∧ maxDecodedLength 3 ≤ 1 ∧ 3 ≤ 3 ∧ 256 ≤ 256 := by decide

theorem witness_ConsumedMarksTheBytesThatMatter :
    (cobsDecode [0x02#8, 0x00#8] 1).status = .unexpectedZero ∧ ([0x00#8] : List Byte)[0]? = some marker ∧
      (cobsDecode [0x01#8, 0x00#8, 0x07#8] 1).status = .ok := by decide

end Sys2Proof.Tests
end

/-! SUPPORT. The invariant of the machine (spec/10_state.md R39, R40), cut into the part that every phase keeps and the part of the
running command, and how each operation keeps them. -/

namespace Sys2Proof.Machine

open Sys2Proof

/-- The part of the invariant that asks nothing of the engine's progress: canonical buffers, sizes that fit (R20), and a legal
code in `OP` once written (R20). -/
def State.Common (s : State) : Prop :=
  s.src.wf = true ∧ s.dst.wf = true ∧ s.SizesFit ∧ (s.written.op = true → 1 ≤ s.op.toNat ∧ s.op.toNat ≤ 4)

/-- The part of the invariant that the codec command `code` keeps from its issue step to its end, in whatever phase. -/
def State.Running (code : Byte) (s : State) : Prop :=
  s.Common ∧ s.op = code ∧ s.written.op = true ∧ s.written.srcLen = true ∧ s.written.dstCap = true

/-! The invariant, by phase. -/

theorem State.Inv.common {s : State} (h : s.Inv) : s.Common := by
  obtain ⟨hsrc, hdst, hsizes, ⟨hop, -⟩, -⟩ := h
  exact ⟨hsrc, hdst, hsizes, hop⟩

theorem State.Common.inv_of_idle {s : State} (h : s.Common) (hp : s.phase = .idle) : s.Inv := by
  obtain ⟨hsrc, hdst, hsizes, hop⟩ := h
  refine ⟨hsrc, hdst, hsizes, ⟨hop, ?_, ?_⟩, ?_, ?_, ?_⟩ <;>
    simp [hp, State.EncoderInv, State.DecoderInv, State.OperandsWritten]

theorem State.Inv.encoding {s : State} (h : s.Inv) (hp : s.phase = .encScan ∨ s.phase = .encFinish) :
    s.Running 0x03#8 ∧ s.EncoderInv := by
  have hcommon := h.common
  obtain ⟨-, -, -, ⟨-, hcode, -⟩, henc, -, hwritten⟩ := h
  exact ⟨⟨hcommon, hcode hp, hwritten (by rcases hp with hp | hp <;> simp [hp])⟩, henc⟩

theorem State.Running.inv_of_encoding {s : State} (h : s.Running 0x03#8) (hp : s.phase = .encScan ∨ s.phase = .encFinish)
    (he : s.EncoderInv) : s.Inv := by
  obtain ⟨⟨hsrc, hdst, hsizes, hop⟩, hcode, hwritten⟩ := h
  have hdec : ¬ (s.phase = .decAwaitOffset ∨ s.phase = .decCopyRun) := by rcases hp with hp | hp <;> simp [hp]
  exact ⟨hsrc, hdst, hsizes, ⟨hop, fun _ => hcode, fun hd => absurd hd hdec⟩, he, fun hd => absurd hd hdec, fun _ => hwritten⟩

theorem State.Inv.decoding {s : State} (h : s.Inv) (hp : s.phase = .decAwaitOffset ∨ s.phase = .decCopyRun) :
    s.Running 0x04#8 ∧ s.DecoderInv := by
  have hcommon := h.common
  obtain ⟨-, -, -, ⟨-, -, hcode⟩, -, hdec, hwritten⟩ := h
  exact ⟨⟨hcommon, hcode hp, hwritten (by rcases hp with hp | hp <;> simp [hp])⟩, hdec⟩

theorem State.Running.inv_of_decoding {s : State} (h : s.Running 0x04#8)
    (hp : s.phase = .decAwaitOffset ∨ s.phase = .decCopyRun) (hd : s.DecoderInv) : s.Inv := by
  obtain ⟨⟨hsrc, hdst, hsizes, hop⟩, hcode, hwritten⟩ := h
  have henc : ¬ (s.phase = .encScan ∨ s.phase = .encFinish) := by rcases hp with hp | hp <;> simp [hp]
  exact ⟨hsrc, hdst, hsizes, ⟨hop, fun he => absurd he henc, fun _ => hcode⟩, fun he => absurd he henc, hd, fun _ => hwritten⟩

/-! What the invariant does not speak of, and the buffers. -/

/-- The invariant asks nothing of the host, the reset input and the draw counter. -/
theorem State.inv_setOutside {s : State} (a : HostAgent) (r : Option Nat) (n : Nat) :
    ({ s with host := a, resetIn := r, freeCount := n } : State).Inv ↔ s.Inv := Iff.rfl

@[simp] theorem State.inv_pollHost {s : State} : s.pollHost.Inv ↔ s.Inv := Iff.rfl

@[simp] theorem State.inv_hostAdvance {s : State} : s.hostAdvance.Inv ↔ s.Inv := Iff.rfl

theorem State.Inv.src_wf {s : State} (h : s.Inv) : s.src.wf = true := h.1

theorem State.Inv.dst_wf {s : State} (h : s.Inv) : s.dst.wf = true := by
  obtain ⟨-, hdst, -⟩ := h
  exact hdst

theorem State.Inv.setSrc {s : State} {m : Memory} (h : s.Inv) (hm : m.wf = true) : ({ s with src := m } : State).Inv := by
  obtain ⟨-, hrest⟩ := h
  exact ⟨hm, hrest⟩

theorem State.Inv.setDst {s : State} {m : Memory} (h : s.Inv) (hm : m.wf = true) : ({ s with dst := m } : State).Inv := by
  obtain ⟨hsrc, -, hrest⟩ := h
  exact ⟨hsrc, hm, hrest⟩

/-! Completion and failure (R211 to R213), from any phase. -/

theorem State.Common.complete_inv {s : State} (h : s.Common) (st : Status) {c p r : Nat} (hc : c ≤ sizeMax s.sizeBits)
    (hp : p ≤ sizeMax s.sizeBits) (hr : r ≤ sizeMax s.sizeBits) : (s.complete st c p r).Inv := by
  obtain ⟨hsrc, hdst, ⟨hlen, hcap, harg, -⟩, hop⟩ := h
  exact State.Common.inv_of_idle ⟨hsrc, hdst, ⟨hlen, hcap, harg, hp, hc, hr⟩, hop⟩ rfl

theorem State.Common.drawDst {s : State} (h : s.Common) : s.drawDst.Common := by
  obtain ⟨hsrc, hdst, hrest⟩ := h
  exact ⟨hsrc, Memory.wf_drawBelow _ _ hdst, hrest⟩

theorem State.Common.fail_inv {s : State} (h : s.Common) (st : Status) {c : Nat} (hc : c ≤ sizeMax s.sizeBits) :
    (s.fail st c).Inv :=
  h.drawDst.complete_inv st hc (Nat.zero_le _) (Nat.zero_le _)

/-- A bounded write keeps the invariant if what comes after a write that fits does. -/
theorem State.Common.pushThen_inv {s : State} (h : s.Common) (v : Byte) {k : State → State}
    (hk : s.wr < s.dstCap → (k (s.placeByte v)).Inv) : (s.pushThen v k).Inv := by
  rcases s.pushThen_cases v k with ⟨hroom, heq⟩ | ⟨-, heq⟩ <;> rw [heq]
  · exact hk hroom
  · exact h.fail_inv _ (Nat.zero_le _)

/-! A running command: the operations that touch only the datapath registers, `PHASE` and `DST`. -/

section Running

variable {s : State} {code : Byte}

theorem State.Running.common (h : s.Running code) : s.Common := h.1

theorem State.Running.sizesFit (h : s.Running code) : s.SizesFit := by
  obtain ⟨⟨-, -, hsizes, -⟩, -⟩ := h
  exact hsizes

@[simp] theorem State.running_advanceRd : s.advanceRd.Running code ↔ s.Running code := Iff.rfl
@[simp] theorem State.running_openSlot : s.openSlot.Running code ↔ s.Running code := Iff.rfl
@[simp] theorem State.running_countRun : s.countRun.Running code ↔ s.Running code := Iff.rfl
@[simp] theorem State.running_encSourceEnd : s.encSourceEnd.Running code ↔ s.Running code := Iff.rfl
@[simp] theorem State.running_startEncode : s.startEncode.Running code ↔ s.Running code := Iff.rfl
@[simp] theorem State.running_startDecode : s.startDecode.Running code ↔ s.Running code := Iff.rfl
@[simp] theorem State.running_loadRun (c : Byte) : (s.loadRun c).Running code ↔ s.Running code := Iff.rfl
@[simp] theorem State.running_countDown : s.countDown.Running code ↔ s.Running code := Iff.rfl

theorem State.Running.placeByte (h : s.Running code) (v : Byte) : (s.placeByte v).Running code := by
  obtain ⟨⟨hsrc, hdst, hrest⟩, hheld⟩ := h
  exact ⟨⟨hsrc, Memory.wf_write _ _ hdst, hrest⟩, hheld⟩

theorem State.Running.finalizeSlot (h : s.Running code) (v : Byte) : (s.finalizeSlot v).Running code := by
  obtain ⟨⟨hsrc, hdst, hrest⟩, hheld⟩ := h
  exact ⟨⟨hsrc, Memory.wf_write _ _ hdst, hrest⟩, hheld⟩

end Running

/-! The encoder's steps (R125 to R129). -/

section Encoder

variable {s : State}

/-- R39 in ENC_SCAN with a pending slot. -/
theorem State.encoderInv_of_pending (hp : s.phase = .encScan) (hpend : s.pend = true) (hofs : s.ofsPtr < s.wr)
    (hcap : s.wr ≤ s.dstCap) (hrun : s.run.toNat = s.wr - s.ofsPtr) (hshort : s.run.toNat ≤ 254) (hrd : s.rd ≤ s.srcLen) :
    s.EncoderInv :=
  fun _ => ⟨by omega, fun _ => ⟨hofs, hcap, hrun, hshort⟩, by simp [hpend], hrd, hcap, by simp [hp]⟩

/-- While source bytes remain a slot is pending, since R39 (c) ties `PEND = 0` to an exhausted source. -/
theorem State.EncoderInv.pending (h : s.EncoderInv) (hp : s.phase = .encScan) (hrd : s.rd < s.srcLen) :
    s.pend = true ∧ s.ofsPtr < s.wr ∧ s.run.toNat = s.wr - s.ofsPtr ∧ s.run.toNat ≤ 254 := by
  obtain ⟨-, hslot, hfull, -⟩ := h (.inl hp)
  cases hpend : s.pend with
  | false =>
    obtain ⟨hend, -⟩ := hfull hpend
    omega
  | true =>
    obtain ⟨hofs, -, hrun, hshort⟩ := hslot hpend
    exact ⟨rfl, hofs, hrun, hshort⟩

theorem State.Running.reserveSlot_inv (h : s.Running 0x03#8) (hp : s.phase = .encScan) (hpend : s.pend = true)
    (hrd : s.rd ≤ s.srcLen) : s.reserveSlot.Inv := by
  rcases s.reserveSlot_cases with ⟨hroom, heq⟩ | ⟨-, heq⟩ <;> rw [heq]
  · exact State.Running.inv_of_encoding (State.running_openSlot.2 h) (.inl hp)
      (State.encoderInv_of_pending hp hpend (by simp) (by simpa using hroom) (by simp) (by simp) hrd)
  · exact h.common.fail_inv _ (Nat.zero_le _)

theorem State.Running.closeFullRun_inv (h : s.Running 0x03#8) (hp : s.phase = .encScan) (hpend : s.pend = true)
    (hrun : s.run = maxOffset) (hrd : s.rd ≤ s.srcLen) (hcap : s.wr ≤ s.dstCap) : s.closeFullRun.Inv := by
  have hfin := h.finalizeSlot maxOffset
  unfold State.closeFullRun
  split_ifs with hmore
  · exact hfin.reserveSlot_inv hp hpend hrd
  · rw [State.sourceRemains_iff] at hmore
    refine State.Running.inv_of_encoding hfin (.inl hp) fun _ => ?_
    exact ⟨by simp [hrun], by simp, fun _ => ⟨by simp; omega, hrun⟩, hrd, hcap, by simp [hp]⟩

/-- ENC.MARKER (R126). -/
theorem State.Inv.encMarker (h : s.Inv) (hp : s.phase = .encScan) (hrd : s.rd < s.srcLen) :
    ((s.advanceRd.finalizeSlot s.run).reserveSlot).Inv := by
  obtain ⟨hrunning, henc⟩ := h.encoding (.inl hp)
  obtain ⟨hpend, -⟩ := henc.pending hp hrd
  exact ((State.running_advanceRd.2 hrunning).finalizeSlot _).reserveSlot_inv hp hpend hrd

/-- ENC.DATA (R127): `RUN` and `WR` rise together; at 0xFF the run is closed. -/
theorem State.Inv.encData (h : s.Inv) (hp : s.phase = .encScan) (hrd : s.rd < s.srcLen) (b : Byte) :
    (s.advanceRd.pushThen b fun s => if s.countRun.runFull then s.countRun.closeFullRun else s.countRun).Inv := by
  obtain ⟨hrunning, henc⟩ := h.encoding (.inl hp)
  obtain ⟨hpend, hofs, hrun, hshort⟩ := henc.pending hp hrd
  refine (State.running_advanceRd.2 hrunning).common.pushThen_inv b fun hroom => ?_
  have hcount : (s.advanceRd.placeByte b).countRun.Running 0x03#8 :=
    State.running_countRun.2 ((State.running_advanceRd.2 hrunning).placeByte b)
  have hnext : (s.run + 0x01#8).toNat = s.run.toNat + 1 := by bv_omega
  split_ifs with hfull
  · exact hcount.closeFullRun_inv hp hpend (State.runFull_iff.1 hfull) hrd hroom
  · have hne : s.run + 0x01#8 ≠ maxOffset := fun he => hfull (State.runFull_iff.2 he)
    have hle : (s.run + 0x01#8).toNat ≤ 254 := by bv_omega
    exact State.Running.inv_of_encoding hcount (.inl hp)
      (State.encoderInv_of_pending hp hpend (by simp; omega) hroom (by simp; omega) hle hrd)

/-- The source of ENC_SCAN is exhausted (R125). -/
theorem State.Inv.encSourceEnd (h : s.Inv) (hp : s.phase = .encScan) (hrd : s.srcLen ≤ s.rd) : s.encSourceEnd.Inv := by
  obtain ⟨hrunning, henc⟩ := h.encoding (.inl hp)
  obtain ⟨hrange, hslot, hfull, hle, hcap, -⟩ := henc (.inl hp)
  exact State.Running.inv_of_encoding (State.running_encSourceEnd.2 hrunning) (.inr rfl)
    fun _ => ⟨hrange, hslot, hfull, hle, hcap, fun _ => Nat.le_antisymm hle hrd⟩

/-- ENC_FINISH (R129). -/
theorem State.Inv.finishEncode (h : s.Inv) (hp : s.phase = .encFinish) : s.finishEncode.Inv := by
  obtain ⟨hrunning, -⟩ := h.encoding (.inr hp)
  have push : ∀ {u : State}, u.Running 0x03#8 → (u.pushThen marker fun s => s.complete .ok 0 s.wr 0).Inv := by
    intro u hu
    refine hu.common.pushThen_inv marker fun hroom => ?_
    obtain ⟨-, hcap, -⟩ := hu.sizesFit
    exact (hu.placeByte marker).common.complete_inv _ (Nat.zero_le _) (Nat.le_trans hroom hcap) (Nat.zero_le _)
  unfold State.finishEncode
  split_ifs
  · exact push (hrunning.finalizeSlot _)
  · exact push hrunning

end Encoder

/-! The decoder's steps (R162 to R165). -/

section Decoder

variable {s : State}

theorem runPhase_cases (r : Byte) : runPhase r = .decAwaitOffset ∨ runPhase r = .decCopyRun := by
  by_cases hr : r = 0x00#8 <;> simp [hr]

/-- R40 once an offset byte has been read (`PREV` and `RD` at least 1), `REM` bytes of its run being still to copy. -/
theorem State.decoderInv_of_rem (hp : s.phase = runPhase s.rem) (hprev : s.prev ≠ 0x00#8)
    (hrem : s.rem.toNat ≤ s.prev.toNat - 1) (hrd : 1 ≤ s.rd) (hwr : s.wr ≤ s.rd - 1) (hcap : s.wr ≤ s.dstCap)
    (hle : s.rd ≤ s.srcLen) : s.DecoderInv := by
  intro _
  refine ⟨by simp [hprev]; omega, fun hcopy => ⟨?_, hrem⟩, fun hawait => ?_, fun _ => hwr, by omega, hcap, hle⟩
  · have hne := runPhase_eq_copy.1 (hp ▸ hcopy)
    bv_omega
  · exact runPhase_eq_await.1 (hp ▸ hawait)

theorem State.Running.loadRun_inv (h : s.Running 0x04#8) {c : Byte} (hc : c ≠ marker) (hrd : 1 ≤ s.rd)
    (hwr : s.wr ≤ s.rd - 1) (hcap : s.wr ≤ s.dstCap) (hle : s.rd ≤ s.srcLen) : (s.loadRun c).Inv :=
  State.Running.inv_of_decoding ((State.running_loadRun c).2 h) (runPhase_cases _)
    (State.decoderInv_of_rem rfl hc (Nat.le_of_eq (remOfOffset_toNat hc)) hrd hwr hcap hle)

/-- A nonzero offset byte (R164): with `PREV` in 1 to 254 a byte has been read before, so the restored zero fits below `RD`. -/
theorem State.Inv.takeOffset (h : s.Inv) (hp : s.phase = .decAwaitOffset) (hrd : s.rd < s.srcLen) {b : Byte}
    (hb : b ≠ marker) : (s.advanceRd.takeOffset b).Inv := by
  obtain ⟨hrunning, hdec⟩ := h.decoding (.inl hp)
  obtain ⟨hprev, -, -, hwr, hwr0, hcap, -⟩ := hdec (.inl hp)
  have hread : s.advanceRd.Running 0x04#8 := State.running_advanceRd.2 hrunning
  unfold State.takeOffset
  split_ifs with hz
  · obtain ⟨hne, -⟩ := State.restoresZero_iff.1 hz
    have hpos : s.rd ≠ 0 := fun h0 => hne (hprev.2 h0)
    refine hread.common.pushThen_inv marker fun hroom => ?_
    exact (hread.placeByte marker).loadRun_inv hb (by simp) (by simp; omega) hroom hrd
  · exact hread.loadRun_inv hb (by simp) (by simp; omega) hcap hrd

/-- DEC.DATA (R165). -/
theorem State.Inv.decData (h : s.Inv) (hp : s.phase = .decCopyRun) (hrd : s.rd < s.srcLen) (b : Byte) :
    (s.advanceRd.pushThen b fun s => s.countDown).Inv := by
  obtain ⟨hrunning, hdec⟩ := h.decoding (.inr hp)
  obtain ⟨hprev, hrem, -, hwr, -, -, -⟩ := hdec (.inr hp)
  obtain ⟨hrem1, hremle⟩ := hrem hp
  have hne : s.prev ≠ 0x00#8 := fun h0 => by simp [h0] at hremle; omega
  have hpos : s.rd ≠ 0 := fun h0 => hne (hprev.2 h0)
  have hread : s.advanceRd.Running 0x04#8 := State.running_advanceRd.2 hrunning
  refine hread.common.pushThen_inv b fun hroom => ?_
  refine State.Running.inv_of_decoding (State.running_countDown.2 (hread.placeByte b)) (runPhase_cases _) ?_
  have hdown : (s.rem - 0x01#8).toNat ≤ s.prev.toNat - 1 := by bv_omega
  exact State.decoderInv_of_rem rfl hne hdown (by simp) (by simp; omega) hroom hrd

/-- DEC.ZERO_FIRST and DEC.ZERO_IN_RUN (R163, R165). -/
theorem State.Inv.decZero (h : s.Inv) (hrd : s.rd < s.srcLen) : (s.advanceRd.fail .unexpectedZero (s.rd + 1)).Inv := by
  obtain ⟨-, -, ⟨hlen, -⟩, -⟩ := h.common
  exact State.Common.fail_inv (s := s.advanceRd) h.common _ (Nat.le_trans hrd hlen)

/-- DEC.TERMINATOR (R163). -/
theorem State.Inv.decTerminator (h : s.Inv) (hp : s.phase = .decAwaitOffset) (hrd : s.rd < s.srcLen) :
    (s.advanceRd.complete .ok (s.rd + 1) s.wr 0).Inv := by
  obtain ⟨hrunning, hdec⟩ := h.decoding (.inl hp)
  obtain ⟨-, -, -, -, -, hwr, -⟩ := hdec (.inl hp)
  obtain ⟨hlen, hcap, -⟩ := hrunning.sizesFit
  exact (State.running_advanceRd.2 hrunning).common.complete_inv _ (Nat.le_trans hrd hlen) (Nat.le_trans hwr hcap) (Nat.zero_le _)

end Decoder

/-- Every step of a busy engine keeps the invariant. -/
theorem engineStep_keeps_inv {s t : State} (h : s.Inv) (hb : s.phase ≠ .idle) (hstep : engineStep s = .next t) : t.Inv := by
  rcases engineStep_busy_cases hb hstep with ⟨hp, rfl⟩ | ⟨hp, hend, rfl⟩ | ⟨-, -, rfl⟩ | ⟨hrd, b, -, hclass⟩
  · exact h.finishEncode hp
  · exact h.encSourceEnd hp hend
  · exact h.common.fail_inv _ (Nat.zero_le _)
  · rcases hclass with ⟨hp, -, rfl⟩ | ⟨hp, -, rfl⟩ | ⟨-, -, -, rfl⟩ | ⟨hp, -, -, rfl⟩ | ⟨hp, hne, rfl⟩ | ⟨-, -, rfl⟩ |
      ⟨hp, -, rfl⟩
    · exact h.encMarker hp hrd
    · exact h.encData hp hrd b
    · exact h.decZero hrd
    · exact h.decTerminator hp hrd
    · exact h.takeOffset hp hrd hne
    · exact h.decZero hrd
    · exact h.decData hp hrd b

/-! The issue of a command (R81). -/

section Issue

variable {s t : State}

theorem State.Common.latchOp (h : s.Common) {code : Byte} (hlo : 1 ≤ code.toNat) (hhi : code.toNat ≤ 4) :
    (s.latchOp code).Common := by
  obtain ⟨hsrc, hdst, hsizes, -⟩ := h
  exact ⟨hsrc, hdst, hsizes, fun _ => ⟨hlo, hhi⟩⟩

theorem State.Common.running_latchOp (h : s.Common) {code : Byte} (hlo : 1 ≤ code.toNat) (hhi : code.toNat ≤ 4)
    (hw : s.firstUnwritten codecOperands = none) : (s.latchOp code).Running code :=
  ⟨h.latchOp hlo hhi, rfl, rfl, State.firstUnwritten_codec_none.1 hw⟩

/-- MAXENC (R100). -/
theorem execMaxEnc_keeps_inv (h : s.Inv) (hx : execMaxEnc s = .next t) : t.Inv := by
  obtain ⟨-, -, hk⟩ := State.issueThen_next.1 hx
  split_ifs at hk with hbig
  cases hk
  exact (h.common.latchOp (by decide) (by decide)).complete_inv _ (Nat.zero_le _) (Nat.zero_le _) (Nat.le_of_not_gt hbig)

theorem maxDecodedLength_le (m : Nat) : maxDecodedLength m ≤ m := by
  unfold maxDecodedLength; split_ifs <;> omega

/-- MAXDEC (R103). -/
theorem execMaxDec_keeps_inv (h : s.Inv) (hx : execMaxDec s = .next t) : t.Inv := by
  obtain ⟨-, -, hk⟩ := State.issueThen_next.1 hx
  cases hk
  obtain ⟨-, -, ⟨-, -, harg, -⟩, -⟩ := h.common
  exact (h.common.latchOp (by decide) (by decide)).complete_inv _ (Nat.zero_le _) (Nat.zero_le _)
    (Nat.le_trans (maxDecodedLength_le _) harg)

/-- ENCODE's issue step (R124). -/
theorem execEncodeCmd_keeps_inv (h : s.Inv) (hx : execEncodeCmd s = .next t) : t.Inv := by
  obtain ⟨-, hw, hk⟩ := State.issueThen_next.1 hx
  have hrunning := h.common.running_latchOp (code := 0x03#8) (by decide) (by decide) hw
  split_ifs at hk with hcap <;> cases hk
  · exact hrunning.common.fail_inv _ (Nat.zero_le _)
  · exact State.Running.inv_of_encoding (State.running_startEncode.2 hrunning) (.inl rfl)
      (State.encoderInv_of_pending rfl rfl (by simp) (Nat.pos_of_ne_zero hcap) rfl (by simp) (Nat.zero_le _))

/-- DECODE's issue step (R161). -/
theorem execDecodeCmd_keeps_inv (h : s.Inv) (hx : execDecodeCmd s = .next t) : t.Inv := by
  obtain ⟨-, hw, hk⟩ := State.issueThen_next.1 hx
  cases hk
  have hrunning := h.common.running_latchOp (code := 0x04#8) (by decide) (by decide) hw
  exact State.Running.inv_of_decoding (State.running_startDecode.2 hrunning) (.inl rfl) fun _ => by simp

/-- A host write to `OP` that is answered issues one of the four commands (R80, R82). -/
theorem writeOp_cases {n : Nat} (hx : writeOp n s = .next t) :
    execMaxEnc s = .next t ∨ execMaxDec s = .next t ∨ execEncodeCmd s = .next t ∨ execDecodeCmd s = .next t := by
  unfold writeOp at hx
  split_ifs at hx
  simp only [runByte, decode, decodeOp] at hx
  split_ifs at hx
  · exact .inl hx
  · exact .inr (.inl hx)
  · exact .inr (.inr (.inl hx))
  · exact .inr (.inr (.inr hx))

theorem writeOp_keeps_inv {n : Nat} (h : s.Inv) (hx : writeOp n s = .next t) : t.Inv := by
  rcases writeOp_cases hx with hx | hx | hx | hx
  · exact execMaxEnc_keeps_inv h hx
  · exact execMaxDec_keeps_inv h hx
  · exact execEncodeCmd_keeps_inv h hx
  · exact execDecodeCmd_keeps_inv h hx

end Issue

/-! The host's moves on an IDLE block (R67, R85). -/

section Host

variable {s t : State}

/-- An answer of a guarded move is the one its guard lets through. -/
theorem next_of_guarded {c : Prop} [Decidable c] {u : State} {r : Refusal}
    (h : (if c then .next u else .refused r : Host.Outcome State Fault Refusal) = .next t) : c ∧ t = u := by
  split_ifs at h with hc
  exact ⟨hc, (Host.Outcome.next.inj h).symm⟩

/-- A host write that is answered sets one of the three operand registers to a value of its width (R20, R21). -/
theorem State.setRegister_cases {r : HostReg} {n : Nat} (hx : s.setRegister r n = .next t) :
    n ≤ sizeMax s.sizeBits ∧
      (t = { s with srcLen := n, written := { s.written with srcLen := true } } ∨
        t = { s with dstCap := n, written := { s.written with dstCap := true } } ∨
          t = { s with arg := n, written := { s.written with arg := true } }) := by
  cases r with
  | srcLen =>
    obtain ⟨hfit, rfl⟩ := next_of_guarded hx
    exact ⟨hfit, .inl rfl⟩
  | dstCap =>
    obtain ⟨hfit, rfl⟩ := next_of_guarded hx
    exact ⟨hfit, .inr (.inl rfl)⟩
  | arg =>
    obtain ⟨hfit, rfl⟩ := next_of_guarded hx
    exact ⟨hfit, .inr (.inr rfl)⟩
  | _ => cases hx

theorem writeRegister_keeps_inv {r : HostReg} {n : Nat} (h : s.Inv) (hp : s.phase = .idle)
    (hx : writeRegister r n s = .next t) : t.Inv := by
  unfold writeRegister at hx
  split_ifs at hx with hr
  · exact writeOp_keeps_inv h hx
  · obtain ⟨hsrc, hdst, ⟨hlen, hcap, harg, hresults⟩, hop⟩ := h.common
    obtain ⟨hfit, rfl | rfl | rfl⟩ := State.setRegister_cases hx
    · exact State.Common.inv_of_idle ⟨hsrc, hdst, ⟨hfit, hcap, harg, hresults⟩, hop⟩ hp
    · exact State.Common.inv_of_idle ⟨hsrc, hdst, ⟨hlen, hfit, harg, hresults⟩, hop⟩ hp
    · exact State.Common.inv_of_idle ⟨hsrc, hdst, ⟨hlen, hcap, hfit, hresults⟩, hop⟩ hp

/-! The moves that change nothing but the host itself. -/

theorem State.hostRead_next {r : HostReg} (hx : s.hostRead r = .next t) : ∃ a, t = { s with host := a } := by
  unfold State.hostRead at hx
  split_ifs at hx
  exact ⟨_, (Host.Outcome.next.inj hx).symm⟩

theorem State.hostFetch_next {m : Buffer} {i : Nat} (hx : s.hostFetch m i = .next t) : ∃ a, t = { s with host := a } := by
  unfold State.hostFetch at hx
  cases m <;> simp only at hx <;> split at hx <;> cases hx <;> exact ⟨_, rfl⟩

theorem State.hostGoto_next {l : Nat} (hx : s.hostGoto l = .next t) : ∃ a, t = { s with host := a } := by
  unfold State.hostGoto at hx
  split at hx <;> cases hx
  exact ⟨_, rfl⟩

theorem State.hostBranch_next {st : Status} {l : Nat} (hx : s.hostBranch st l = .next t) :
    ∃ a, t = { s with host := a } := by
  unfold State.hostBranch at hx
  split_ifs at hx
  · exact State.hostGoto_next hx
  · exact ⟨_, (Host.Outcome.next.inj hx).symm⟩

theorem State.Inv.of_host (h : s.Inv) (ht : ∃ a, t = { s with host := a }) : t.Inv := by
  obtain ⟨a, rfl⟩ := ht
  exact (State.inv_setOutside a _ _).2 h

/-! The moves that write a buffer. -/

theorem State.Inv.hostLoad (h : s.Inv) (bs : List Byte) : (s.hostLoad bs).Inv :=
  h.setSrc (Memory.wf_writeList 0 bs h.src_wf)

theorem State.Inv.hostAppend (h : s.Inv) (bs : List Byte) : (s.hostAppend bs).Inv :=
  h.setSrc (Memory.wf_writeList _ bs h.src_wf)

theorem State.Inv.hostDrop (h : s.Inv) (k : Nat) : (s.hostDrop k).Inv := by
  rw [State.hostDrop_eq]
  exact h.setSrc (Memory.wf_shiftDown k h.src_wf)

theorem State.Inv.hostStore (h : s.Inv) (m : Buffer) (i : Nat) (bs : List Byte) : (s.hostStore m i bs).Inv := by
  cases m with
  | src => exact h.setSrc (Memory.wf_writeList i bs h.src_wf)
  | dst => exact h.setDst (Memory.wf_writeList i bs h.dst_wf)

theorem State.Inv.hostMove {i j : Nat} (h : s.Inv) (hx : s.hostMove i j = .next t) : t.Inv := by
  unfold State.hostMove at hx
  split at hx <;> cases hx
  exact h.hostLoad _

/-- Every statement of the host on an IDLE block keeps the invariant. -/
theorem hostStmt_keeps_inv {st : HostStmt} (h : s.Inv) (hp : s.phase = .idle) (hx : hostStmt st s = .next t) : t.Inv := by
  have hadv : s.hostAdvance.Inv := State.inv_hostAdvance.2 h
  cases st with
  | write r v =>
    simp only [hostStmt] at hx
    split at hx
    · exact writeRegister_keeps_inv hadv hp hx
    · cases hx
  | read r => exact hadv.of_host (State.hostRead_next hx)
  | load bs => cases hx; exact hadv.hostLoad bs
  | move i j => exact hadv.hostMove hx
  | drop v =>
    simp only [hostStmt] at hx
    split at hx <;> cases hx
    exact hadv.hostDrop _
  | append bs => cases hx; exact hadv.hostAppend bs
  | store m i bs => cases hx; exact hadv.hostStore m i bs
  | fetch m i => exact hadv.of_host (State.hostFetch_next hx)
  | wait => cases hx; exact hadv
  | ifStatus stat l => exact h.of_host (State.hostBranch_next hx)
  | goto l => exact h.of_host (State.hostGoto_next hx)
  | label l => cases hx; exact hadv

theorem hostStep_keeps_inv (h : s.Inv) (hp : s.phase = .idle) (hx : hostStep s = .next t) : t.Inv := by
  unfold hostStep at hx
  split at hx
  · exact hostStmt_keeps_inv h hp hx
  · cases hx; exact h

end Host

/-! Hardware reset (R240, R243). -/

theorem State.resetAt_inv (n : Nat) : (State.resetAt n).Inv := by
  refine State.Common.inv_of_idle ⟨rfl, rfl, ?_, ?_⟩ rfl
  · simp [State.SizesFit, State.resetAt]
  · simp [State.resetAt, Written.none]

/-- The reset state, but for the buffers, the host and the draw counter. -/
theorem State.Inv.hardReset {s : State} (h : s.Inv) : s.hardReset.Inv := by
  have hdst : s.hardReset.dst.wf = true := by
    unfold State.hardReset
    split_ifs
    · exact Memory.wf_drawBelow _ _ h.dst_wf
    · exact h.dst_wf
  exact ((State.resetAt_inv s.sizeBits).setSrc h.src_wf).setDst hdst

/-- Settles O3: an IDLE block with empty buffers, nothing written and every size 0, whatever `SIZE_BITS`. -/
theorem invariantHoldsAtReset : Obligations.InvariantHoldsAtReset := ⟨State.resetAt_inv 16, State.resetAt_inv⟩

/-- Settles O4: the hardware reset restores the reset state, a busy engine takes one of its steps, and an IDLE block takes
the host's; the countdown of the reset and the host's read of `BUSY` are no part of the invariant. -/
theorem stepKeepsInvariant : Obligations.StepKeepsInvariant := by
  intro s t h hstep
  rcases step_cases hstep with ⟨-, rfl⟩ | ⟨s', hs', hagent⟩
  · exact h.hardReset
  · have hcount : s'.Inv ∧ s'.phase = s.phase := by
      rcases hs' with ⟨-, rfl⟩ | ⟨n, -, rfl⟩
      · exact ⟨h, rfl⟩
      · exact ⟨(State.inv_setOutside _ (some n) _).2 h, rfl⟩
    obtain ⟨h', hphase⟩ := hcount
    rcases hagent with ⟨hb, he⟩ | ⟨hp, hh⟩
    · exact engineStep_keeps_inv (State.inv_pollHost.2 h') (by simpa [hphase] using hb) he
    · exact hostStep_keeps_inv h' (hphase.trans hp) hh

/-! Reads of unwritten registers (R20, R240). -/

/-- MAXENC and MAXDEC are issue steps that read `ARG` (R80). -/
theorem exec_estimator_eq_issueThen {i : Instr} (hi : i = .maxEnc ∨ i = .maxDec) :
    ∃ code k, ∀ s, exec i s = s.issueThen code estimatorOperands k := by
  rcases hi with rfl | rfl
  · exact ⟨_, _, fun s => by unfold exec execMaxEnc; rfl⟩
  · exact ⟨_, _, fun s => by unfold exec execMaxDec; rfl⟩

/-- ENCODE and DECODE are issue steps that read `SRC_LEN` and `DST_CAP` (R80). -/
theorem exec_codec_eq_issueThen {i : Instr} (hi : i = .encodeCmd ∨ i = .decodeCmd) :
    ∃ code k, ∀ s, exec i s = s.issueThen code codecOperands k := by
  rcases hi with rfl | rfl
  · exact ⟨_, _, fun s => by unfold exec execEncodeCmd; rfl⟩
  · exact ⟨_, _, fun s => by unfold exec execDecodeCmd; rfl⟩

/-- Settles O8: the issue step faults with the first unwritten register of the command's operands. -/
theorem unwrittenOperandFaults : Obligations.UnwrittenOperandFaults := by
  intro s hp
  refine ⟨fun i hi harg => ?_, fun i hi => ?_⟩
  · obtain ⟨code, k, hexec⟩ := exec_estimator_eq_issueThen hi
    rw [hexec]
    exact State.issueThen_unwritten code k hp (by simp [State.firstUnwritten_estimator, harg])
  · obtain ⟨code, k, hexec⟩ := exec_codec_eq_issueThen hi
    rw [hexec]
    constructor
    · intro hlen
      exact State.issueThen_unwritten code k hp (by simp [State.firstUnwritten_codec, hlen])
    · intro hlen hcap
      exact State.issueThen_unwritten code k hp (by simp [State.firstUnwritten_codec, hlen, hcap])

/-- On an IDLE block with no reset on its way, the step is the host's next statement (R67). -/
theorem step_hostStmt {s : State} {st : HostStmt} (hp : s.phase = .idle) (hr : s.resetIn = none)
    (hst : s.host.prog[s.host.pos]? = some st) : step s = hostStmt st s := by
  rw [step_idle hr hp]
  unfold hostStep
  rw [hst]

theorem State.hostRead_written {s : State} {r : HostReg} (h : s.isWritten r = true) :
    s.hostRead r = .next { s with host := { s.host with lastRead := s.regValue r } } := if_pos h

theorem State.hostRead_unwritten {s : State} {r : HostReg} (h : s.isWritten r = false) :
    s.hostRead r = .fault (.unwrittenRegister r) := if_neg (by simp [h])

/-- The operand `RESULT` has a value once a command has completed (R85, R240). -/
theorem State.hostVal_result (s : State) : s.hostVal .result = if s.written.results = true then some s.result else none := rfl

/-- Settles O37: a read goes through `hostRead`, a branch tests `STATUS`, and the operand `RESULT` through `hostVal`. -/
theorem hostReadOfUnwrittenRegisterFaults : Obligations.HostReadOfUnwrittenRegisterFaults := by
  intro s hp hr
  refine ⟨fun r hst => ⟨fun hw => ?_, fun hw => ?_⟩, fun hw => ?_,
    fun hw => ⟨fun r hst => ?_, fun hst => ?_, fun st l hst => ?_⟩⟩
  · rw [step_hostStmt hp hr hst]
    exact State.hostRead_unwritten hw
  · rw [step_hostStmt hp hr hst]
    exact State.hostRead_written (s := s.hostAdvance) hw
  · rw [State.hostVal_result, if_pos hw]
  · rw [step_hostStmt hp hr hst]
    simp [hostStmt, State.hostVal_result, hw]
  · rw [step_hostStmt hp hr hst]
    simp [hostStmt, State.hostVal_result, hw]
  · rw [step_hostStmt hp hr hst]
    exact if_neg (by simp [State.isWritten, hw])

end Sys2Proof.Machine

/-! SUPPORT. The frame of the engine's steps (spec/20_memory.md R52, R53, R61): what no step of the engine writes, and which bytes of
`DST` it leaves alone. -/

namespace Sys2Proof.Machine

open Sys2Proof

/-- What the block holds for the engine to read or to leave alone: the parameter, the command registers, `SRC`, the host and the
reset input (R53, R61). -/
structure Held where
  sizeBits : Nat
  op : Byte
  srcLen : Nat
  dstCap : Nat
  arg : Nat
  src : Memory
  host : HostAgent
  resetIn : Option Nat

/-- The part of a state that no step of the engine writes. -/
def State.held (s : State) : Held :=
  ⟨s.sizeBits, s.op, s.srcLen, s.dstCap, s.arg, s.src, s.host, s.resetIn⟩

/-- The same held part, in the terms of the statements. -/
theorem State.held_eq_iff {s t : State} : t.held = s.held ↔ s.SameOperands t ∧ t.op = s.op ∧ t.host = s.host := by
  simp only [State.held, Held.mk.injEq, State.SameOperands]
  constructor
  · rintro ⟨hsize, hop, hlen, hcap, harg, hsrc, hhost, hreset⟩
    exact ⟨⟨hsize, hlen, hcap, harg, hsrc, by rw [hhost], by rw [hhost], hreset⟩, hop, hhost⟩
  · rintro ⟨⟨hsize, hlen, hcap, harg, hsrc, -, -, hreset⟩, hop, hhost⟩
    exact ⟨hsize, hop, hlen, hcap, harg, hsrc, hhost, hreset⟩

/-! The engine's operations leave the held part alone. -/

section EngineFrame

variable (s : State)

@[simp] theorem State.held_advanceRd : s.advanceRd.held = s.held := rfl
@[simp] theorem State.held_finalizeSlot (v : Byte) : (s.finalizeSlot v).held = s.held := rfl
@[simp] theorem State.held_placeByte (v : Byte) : (s.placeByte v).held = s.held := rfl
@[simp] theorem State.held_openSlot : s.openSlot.held = s.held := rfl
@[simp] theorem State.held_complete (st : Status) (c p r : Nat) : (s.complete st c p r).held = s.held := rfl
@[simp] theorem State.held_fail (st : Status) (c : Nat) : (s.fail st c).held = s.held := rfl
@[simp] theorem State.held_countRun : s.countRun.held = s.held := rfl
@[simp] theorem State.held_encSourceEnd : s.encSourceEnd.held = s.held := rfl
@[simp] theorem State.held_decSourceEnd : s.decSourceEnd.held = s.held := rfl
@[simp] theorem State.held_loadRun (c : Byte) : (s.loadRun c).held = s.held := rfl
@[simp] theorem State.held_countDown : s.countDown.held = s.held := rfl

/-- A bounded write leaves the held part alone if what follows a write that fits does. -/
theorem State.held_pushThen (v : Byte) {k : State → State} (hk : ∀ u, (k u).held = u.held) :
    (s.pushThen v k).held = s.held := by
  rcases s.pushThen_cases v k with ⟨-, heq⟩ | ⟨-, heq⟩ <;> rw [heq]
  · rw [hk, State.held_placeByte]
  · exact s.held_fail _ _

@[simp] theorem State.held_reserveSlot : s.reserveSlot.held = s.held := by
  rcases s.reserveSlot_cases with ⟨-, heq⟩ | ⟨-, heq⟩ <;> rw [heq]
  · exact s.held_openSlot
  · exact s.held_fail _ _

@[simp] theorem State.held_closeFullRun : s.closeFullRun.held = s.held := by
  unfold State.closeFullRun
  split_ifs
  · simp
  · rfl

@[simp] theorem State.held_takeOffset (c : Byte) : (s.takeOffset c).held = s.held := by
  unfold State.takeOffset
  split_ifs
  · exact s.held_pushThen marker fun u => u.held_loadRun c
  · exact s.held_loadRun c

@[simp] theorem State.held_finishEncode : s.finishEncode.held = s.held := by
  unfold State.finishEncode
  rw [State.held_pushThen _ marker fun u => u.held_complete _ _ _ _]
  split_ifs
  · exact s.held_finalizeSlot _
  · rfl

/-- What ENC.DATA does once its byte is placed (R127) leaves the held part alone. -/
theorem State.held_encDataRest :
    (if s.countRun.runFull then s.countRun.closeFullRun else s.countRun).held = s.held := by
  split_ifs <;> simp

end EngineFrame

/-- No step of the engine writes the held part. -/
theorem engineStep_held {s t : State} (hb : s.phase ≠ .idle) (hstep : engineStep s = .next t) : t.held = s.held := by
  rcases engineStep_busy_cases hb hstep with ⟨-, rfl⟩ | ⟨-, -, rfl⟩ | ⟨-, -, rfl⟩ | ⟨-, b, -, hclass⟩
  · exact s.held_finishEncode
  · exact s.held_encSourceEnd
  · exact s.held_decSourceEnd
  · rcases hclass with ⟨-, -, rfl⟩ | ⟨-, -, rfl⟩ | ⟨-, -, -, rfl⟩ | ⟨-, -, -, rfl⟩ | ⟨-, -, rfl⟩ | ⟨-, -, rfl⟩ | ⟨-, -, rfl⟩
    · simp
    · exact s.advanceRd.held_pushThen b State.held_encDataRest
    · simp
    · simp
    · simp
    · simp
    · exact s.advanceRd.held_pushThen b State.held_countDown

/-- The host's move beside the engine's step changes its position and the value it last read, nothing that an operand is. -/
theorem State.SameOperands.of_pollHost {s t : State} (h : s.pollHost.SameOperands t) : s.SameOperands t := by
  simpa [State.SameOperands] using h

/-- Settles O28: the engine's step starts from `pollHost`, which changes only the host, and leaves the held part alone. -/
theorem engineStepKeepsOperands : Obligations.EngineStepKeepsOperands := by
  intro s t hb hr hstep
  rw [step_busy hr hb] at hstep
  obtain ⟨hops, hop, hhost⟩ := State.held_eq_iff.1 (engineStep_held (s := s.pollHost) hb hstep)
  exact ⟨hops.of_pollHost, hop, hhost⟩

/-! The bytes of `DST` at and above `DST_CAP` (R52): every data write is bounded by its own check (R126, R127, R129, R164, R165), and
the slot of `OFS_PTR`, which is written without one (R128), was reserved below `DST_CAP`. -/

section AboveCapacity

variable {s : State} {a : Nat}

theorem State.finalizeSlot_read_above (v : Byte) (hofs : s.ofsPtr < s.dstCap) (ha : s.dstCap ≤ a) :
    (s.finalizeSlot v).dst.read a = s.dst.read a :=
  Memory.read_write_other _ v (by omega)

theorem State.fail_read_above (st : Status) (c : Nat) (ha : s.dstCap ≤ a) : (s.fail st c).dst.read a = s.dst.read a := by
  rw [State.fail_dst_read, if_neg (Nat.not_lt.2 ha)]

/-- A bounded write leaves the byte alone if what follows a write that fits does. -/
theorem State.pushThen_read_above (v : Byte) {k : State → State} (ha : s.dstCap ≤ a)
    (hk : (k (s.placeByte v)).dst.read a = (s.placeByte v).dst.read a) : (s.pushThen v k).dst.read a = s.dst.read a := by
  rcases s.pushThen_cases v k with ⟨hroom, heq⟩ | ⟨-, heq⟩ <;> rw [heq]
  · rw [hk]
    exact Memory.read_write_other _ v (by omega)
  · exact State.fail_read_above _ _ ha

theorem State.reserveSlot_read_above (ha : s.dstCap ≤ a) : s.reserveSlot.dst.read a = s.dst.read a := by
  rcases s.reserveSlot_cases with ⟨-, heq⟩ | ⟨-, heq⟩ <;> rw [heq]
  · rfl
  · exact State.fail_read_above _ _ ha

theorem State.closeFullRun_read_above (hofs : s.ofsPtr < s.dstCap) (ha : s.dstCap ≤ a) :
    s.closeFullRun.dst.read a = s.dst.read a := by
  have hfin := State.finalizeSlot_read_above maxOffset hofs ha
  unfold State.closeFullRun
  split_ifs
  · exact (State.reserveSlot_read_above (s := s.finalizeSlot maxOffset) ha).trans hfin
  · exact hfin

theorem State.finishEncode_read_above (hofs : s.pend = true → s.ofsPtr < s.dstCap) (ha : s.dstCap ≤ a) :
    s.finishEncode.dst.read a = s.dst.read a := by
  unfold State.finishEncode
  split_ifs with hpend
  · exact (State.pushThen_read_above (s := s.finalizeSlot s.run) marker ha rfl).trans
      (State.finalizeSlot_read_above s.run (hofs hpend) ha)
  · exact State.pushThen_read_above marker ha rfl

theorem State.takeOffset_read_above (c : Byte) (ha : s.dstCap ≤ a) : (s.takeOffset c).dst.read a = s.dst.read a := by
  unfold State.takeOffset
  split_ifs
  · exact State.pushThen_read_above marker ha rfl
  · rfl

/-- R39 (b): a pending slot was reserved inside `DST`. -/
theorem State.Inv.ofsPtr_lt_dstCap (h : s.Inv) (hp : s.phase = .encScan ∨ s.phase = .encFinish) (hpend : s.pend = true) :
    s.ofsPtr < s.dstCap := by
  obtain ⟨-, henc⟩ := h.encoding hp
  obtain ⟨-, hslot, -⟩ := henc hp
  obtain ⟨hofs, hcap, -⟩ := hslot hpend
  exact Nat.lt_of_lt_of_le hofs hcap

/-- While a byte is scanned a slot is pending, so `OFS_PTR` is inside `DST`. -/
theorem State.Inv.ofsPtr_lt_dstCap_of_scan (h : s.Inv) (hp : s.phase = .encScan) (hrd : s.rd < s.srcLen) :
    s.ofsPtr < s.dstCap := by
  obtain ⟨-, henc⟩ := h.encoding (.inl hp)
  obtain ⟨hpend, -⟩ := henc.pending hp hrd
  exact h.ofsPtr_lt_dstCap (.inl hp) hpend

/-- No step of the engine changes a byte of `DST` at or above `DST_CAP`. -/
theorem engineStep_read_above {t : State} (h : s.Inv) (hb : s.phase ≠ .idle) (hstep : engineStep s = .next t)
    (ha : s.dstCap ≤ a) : t.dst.read a = s.dst.read a := by
  rcases engineStep_busy_cases hb hstep with ⟨hp, rfl⟩ | ⟨-, -, rfl⟩ | ⟨-, -, rfl⟩ | ⟨hrd, b, -, hclass⟩
  · exact State.finishEncode_read_above (h.ofsPtr_lt_dstCap (.inr hp)) ha
  · rfl
  · exact State.fail_read_above _ _ ha
  · rcases hclass with ⟨hp, -, rfl⟩ | ⟨hp, -, rfl⟩ | ⟨-, -, -, rfl⟩ | ⟨-, -, -, rfl⟩ | ⟨-, -, rfl⟩ | ⟨-, -, rfl⟩ |
      ⟨-, -, rfl⟩
    · have hofs := h.ofsPtr_lt_dstCap_of_scan hp hrd
      exact (State.reserveSlot_read_above (s := s.advanceRd.finalizeSlot s.run) ha).trans
        (State.finalizeSlot_read_above (s := s.advanceRd) s.run hofs ha)
    · have hofs := h.ofsPtr_lt_dstCap_of_scan hp hrd
      refine State.pushThen_read_above (s := s.advanceRd) b ha ?_
      split_ifs
      · exact State.closeFullRun_read_above (s := (s.advanceRd.placeByte b).countRun) hofs ha
      · rfl
    · exact State.fail_read_above (s := s.advanceRd) _ _ ha
    · rfl
    · exact State.takeOffset_read_above (s := s.advanceRd) b ha
    · exact State.fail_read_above (s := s.advanceRd) _ _ ha
    · exact State.pushThen_read_above (s := s.advanceRd) b ha rfl

end AboveCapacity

/-- Settles O29: the engine's step starts from `pollHost`, which keeps the invariant and both buffers. -/
theorem engineWritesInsideCapacity : Obligations.EngineWritesInsideCapacity := by
  intro s t h hb hr hstep a ha
  rw [step_busy hr hb] at hstep
  exact engineStep_read_above (s := s.pollHost) (State.inv_pollHost.2 h) hb hstep ha

/-! The host's accesses to the buffers (R50, R67) and to `BUSY` (R61). -/

/-- The host's read of a byte of `SRC`: a fault where it holds none, else the byte as the value last read. -/
theorem State.hostFetch_src (s : State) (i : Nat) :
    (s.src.read i = none → s.hostFetch .src i = .fault (.sourceByteAbsent i)) ∧
      ∀ b, s.src.read i = some b →
        s.hostFetch .src i = .next { s with host := { s.host with lastRead := b.toNat } } :=
  ⟨fun h => by simp [State.hostFetch, h], fun b h => by simp [State.hostFetch, h]⟩

/-- The host's read of a byte of `DST`: a fault where it holds none, else the byte as the value last read. -/
theorem State.hostFetch_dst (s : State) (i : Nat) :
    (s.dst.read i = none → s.hostFetch .dst i = .fault (.destinationByteAbsent i)) ∧
      ∀ b, s.dst.read i = some b →
        s.hostFetch .dst i = .next { s with host := { s.host with lastRead := b.toNat } } :=
  ⟨fun h => by simp [State.hostFetch, h], fun b h => by simp [State.hostFetch, h]⟩

/-- Settles O40: the step is the host's statement, a store is a list of writes and a fetch one read. -/
theorem hostTouchesBuffers : Obligations.HostTouchesBuffers := by
  intro s hp hr
  refine ⟨fun i bs hst => ?_, fun i bs hst => ?_, fun i hst => ?_, fun i hst => ?_⟩ <;>
    rw [step_hostStmt hp hr hst]
  · exact ⟨s.hostAdvance.hostStore .src i bs, rfl, rfl, fun a => Memory.read_writeList s.src i a bs⟩
  · exact ⟨s.hostAdvance.hostStore .dst i bs, rfl, rfl, fun a => Memory.read_writeList s.dst i a bs⟩
  · exact s.hostAdvance.hostFetch_src i
  · exact s.hostAdvance.hostFetch_dst i

/-- `BUSY` reads as 1 while a command runs (R20). -/
theorem State.regValue_busy {s : State} (hb : s.phase ≠ .idle) : s.regValue .busy = 1 := by
  simp [State.regValue, State.busy_eq_true.2 hb]

/-- Settles O41: the engine leaves the host as `waitHost` has moved it. -/
theorem hostMovesWhileBusy : Obligations.HostMovesWhileBusy := by
  intro s t hb hr hstep
  obtain ⟨-, -, hhost⟩ := engineStepKeepsOperands s t hb hr hstep
  rw [hhost]
  rcases s.waitHost_cases with ⟨hst, heq⟩ | ⟨hst, heq⟩ | ⟨hbusy, hwait, heq⟩ <;> rw [heq]
  · simp [hst, State.regValue_busy hb]
  · simp [hst]
  · exact ⟨fun h => absurd h hbusy, fun h => absurd h hwait, fun _ _ => rfl⟩

/-! Several blocks (R66). -/

/-- A step of block `k` is one update at index `k`, the same in every list that holds the same block there (where there is no
block `k`, an update past the end, which changes nothing). -/
theorem stepInstance_next {k : Nat} {bs b : List State} (h : stepInstance k bs = .next b) :
    ∃ u, ∀ bs' : List State, bs'[k]? = bs[k]? → stepInstance k bs' = .next (bs'.set k u) := by
  unfold stepInstance at h
  split at h
  · next s hs =>
    split at h
    · next u hu => exact ⟨u, fun bs' hsame => by simp [stepInstance, hsame, hs, hu]⟩
    · cases h
    · cases h
  · next hnone =>
    refine ⟨State.reset, fun bs' hsame => ?_⟩
    rw [List.set_eq_of_length_le (List.getElem?_eq_none_iff.1 (hsame.trans hnone))]
    simp [stepInstance, hsame, hnone]

/-- Settles O42: each step is an update at its own index, and updates at two indices commute. -/
theorem instancesAreIndependent : Obligations.InstancesAreIndependent := by
  intro j k bs bj bk hjk hj hk
  obtain ⟨u, hu⟩ := stepInstance_next hj
  obtain ⟨v, hv⟩ := stepInstance_next hk
  obtain rfl : bs.set j u = bj := Host.Outcome.next.inj ((hu bs rfl).symm.trans hj)
  obtain rfl : bs.set k v = bk := Host.Outcome.next.inj ((hv bs rfl).symm.trans hk)
  refine ⟨fun m hm => List.getElem?_set_ne hm.symm, (bs.set j u).set k v, ?_, ?_⟩
  · exact hv _ (List.getElem?_set_ne hjk)
  · rw [List.set_comm u v hjk]
    exact hu _ (List.getElem?_set_ne hjk.symm)

end Sys2Proof.Machine

/-! SUPPORT. The decoder and the encoder (spec/30_encoding.md R76, R80, R82): what a byte is read as in each context, and that the
two are inverse to each other. -/

namespace Sys2Proof

@[simp] theorem decodeOffset_maxOffset : decodeOffset maxOffset = .decFullOffset := if_pos rfl

theorem decodeOffset_of_ne {c : Byte} (h : c ≠ maxOffset) : decodeOffset c = .decShortOffset c := if_neg h

/-- A data class asks for a byte other than the marker (R70). -/
theorem Instr.wellFormed_encData {b : Byte} : (Instr.encData b).wellFormed = true ↔ b ≠ marker := by
  simp [Instr.wellFormed]

theorem Instr.wellFormed_decData {b : Byte} : (Instr.decData b).wellFormed = true ↔ b ≠ marker := by
  simp [Instr.wellFormed]

theorem Instr.wellFormed_decShortOffset {c : Byte} :
    (Instr.decShortOffset c).wellFormed = true ↔ c ≠ marker ∧ c ≠ maxOffset := by
  simp [Instr.wellFormed]

/-- A nonzero offset byte is read as the same class whether or not an offset came before it (R76). -/
theorem decode_offset {ctx : Context} (hctx : ctx = .decAwaitFirst ∨ ctx = .decAwaitNext) {c : Byte} (hc : c ≠ marker)
    (rest : List Byte) : decode ctx (c :: rest) = .instr (decodeOffset c) rest := by
  rcases hctx with rfl | rfl <;> simp [decode, hc]

/-- The class of a nonzero offset byte has that byte, in both contexts of an offset. -/
theorem decodeOffset_spec {c : Byte} (hc : c ≠ marker) :
    (decodeOffset c).wellFormed = true ∧ contexts (decodeOffset c) = [.decAwaitFirst, .decAwaitNext] ∧
      encode (decodeOffset c) = [c] := by
  by_cases hmax : c = maxOffset
  · subst hmax
    exact ⟨rfl, rfl, rfl⟩
  · rw [decodeOffset_of_ne hmax]
    exact ⟨Instr.wellFormed_decShortOffset.2 ⟨hc, hmax⟩, rfl, rfl⟩

/-- In a wire context every byte is read as a well-formed class of that context, whose byte it is (R76). -/
theorem exists_wireClass {ctx : Context} (hctx : ctx ≠ .command) (b : Byte) (rest : List Byte) :
    ∃ i, decode ctx (b :: rest) = .instr i rest ∧ i.wellFormed = true ∧ ctx ∈ contexts i ∧ encode i = [b] := by
  by_cases hb : b = marker
  · subst hb
    cases ctx with
    | command => exact absurd rfl hctx
    | encScan => exact ⟨.encMarker, rfl, rfl, by decide, rfl⟩
    | decAwaitFirst => exact ⟨.decZeroFirst, rfl, rfl, by decide, rfl⟩
    | decAwaitNext => exact ⟨.decTerminator, rfl, rfl, by decide, rfl⟩
    | decCopyRun => exact ⟨.decZeroInRun, rfl, rfl, by decide, rfl⟩
  · obtain ⟨hwf, hcontexts, hencode⟩ := decodeOffset_spec hb
    cases ctx with
    | command => exact absurd rfl hctx
    | encScan => exact ⟨.encData b, by simp [decode, hb], Instr.wellFormed_encData.2 hb, List.mem_singleton.2 rfl, rfl⟩
    | decAwaitFirst => exact ⟨_, decode_offset (.inl rfl) hb rest, hwf, by simp [hcontexts], hencode⟩
    | decAwaitNext => exact ⟨_, decode_offset (.inr rfl) hb rest, hwf, by simp [hcontexts], hencode⟩
    | decCopyRun => exact ⟨.decData b, by simp [decode, hb], Instr.wellFormed_decData.2 hb, List.mem_singleton.2 rfl, rfl⟩

/-- Settles O34, class by class: a class with a fixed byte is read by that byte, and a class with a byte of its own by what
well-formedness says that byte is not. -/
theorem decodeOfEncodeIsTheInstruction : Obligations.DecodeOfEncodeIsTheInstruction := by
  intro i ctx rest hwf hctx
  cases i with
  | encData b =>
    obtain rfl := List.mem_singleton.1 hctx
    simp [encode, decode, Instr.wellFormed_encData.1 hwf]
  | decData b =>
    obtain rfl := List.mem_singleton.1 hctx
    simp [encode, decode, Instr.wellFormed_decData.1 hwf]
  | decShortOffset c =>
    obtain ⟨hmarker, hmax⟩ := Instr.wellFormed_decShortOffset.1 hwf
    have hoffset := decode_offset (by simpa [contexts] using hctx) hmarker rest
    rwa [decodeOffset_of_ne hmax] at hoffset
  | decFullOffset => exact decode_offset (by simpa [contexts] using hctx) (by decide) rest
  | _ =>
    obtain rfl := List.mem_singleton.1 hctx
    rfl

/-- Settles O33: the rows by the decoder's cases, one class at least by `exists_wireClass`, and one at most because a class is
what its own byte decodes to. -/
theorem wireClassesAreTotalAndDisjoint : Obligations.WireClassesAreTotalAndDisjoint := by
  refine ⟨fun b hb => ⟨rfl, ?_, rfl, rfl, fun ctx hctx => ⟨fun hmax => ?_, ?_⟩, rfl, ?_⟩,
    fun s => ⟨fun hp => ?_, fun hp hprev => ?_, fun hp hprev => ?_, fun hp => ?_⟩, fun ctx b rest hctx => ?_⟩
  · simp [decode, hb]
  · rw [decode_offset hctx hb, decodeOffset_of_ne hmax]
  · rw [decode_offset hctx (by decide), decodeOffset_maxOffset]
  · simp [decode, hb]
  · simp [Machine.State.context, hp]
  · simp [Machine.State.context, hp, hprev]
  · simp [Machine.State.context, hp, hprev]
  · simp [Machine.State.context, hp]
  · obtain ⟨i, hdecode, hwf, hcontext, hencode⟩ := exists_wireClass hctx b rest
    refine ⟨i, hdecode, hwf, hcontext, hencode, fun j hj hjcontext hjencode => ?_⟩
    have hsame := decodeOfEncodeIsTheInstruction j ctx rest hj hjcontext
    rw [hjencode, List.singleton_append, hdecode] at hsame
    exact (Decoded.instr.inj hsame).1.symm

/-- Settles O32: thirteen closed words, each evaluated by the decoder. -/
theorem tableWordsDecode : Obligations.TableWordsDecode := by
  unfold Obligations.TableWordsDecode
  decide

/-- 0x00 and the values from 0x05 on select no command (R82). -/
theorem decodeOp_reserved {b : Byte} (h : b = 0x00#8 ∨ 5 ≤ b.toNat) : decodeOp b = none := by
  have hne (c : Byte) (hc : c ≠ 0x00#8 ∧ c.toNat < 5) : b ≠ c := by
    rintro rfl
    rcases h with hzero | hbig
    · exact hc.1 hzero
    · exact absurd hc.2 (Nat.not_lt.2 hbig)
  simp [decodeOp, hne 0x01#8 (by decide), hne 0x02#8 (by decide), hne 0x03#8 (by decide), hne 0x04#8 (by decide)]

end Sys2Proof

/-! SUPPORT. The step that runs a decoded byte (spec/30_encoding.md R76, R81), and the host's writes and buffer moves on an IDLE
block (R83, R85). -/

namespace Sys2Proof.Machine

open Sys2Proof

/-- Settles O31: each of the four 2-bit values is the code of the status that R84 gives it. -/
theorem statusCodesOfTheTable : Obligations.StatusCodesOfTheTable := by
  refine ⟨rfl, rfl, rfl, rfl, fun c => ?_⟩
  have hc : c = 0#2 ∨ c = 1#2 ∨ c = 2#2 ∨ c = 3#2 := by revert c; decide
  rcases hc with rfl | rfl | rfl | rfl
  · exact ⟨.ok, rfl⟩
  · exact ⟨.writeOverflow, rfl⟩
  · exact ⟨.readOverflow, rfl⟩
  · exact ⟨.unexpectedZero, rfl⟩

section HostWrite

variable {s : State} {v : HostVal}

/-- The host's write of a byte to `OP` runs that byte in the context of a command (R81). -/
theorem step_writeOp {b : Byte} (hp : s.phase = .idle) (hr : s.resetIn = none)
    (hst : s.host.prog[s.host.pos]? = some (.write .op v)) (hv : s.hostVal v = some b.toNat) :
    step s = runByte .command b s.hostAdvance := by
  rw [step_hostStmt hp hr hst]
  simp [hostStmt, hv, writeRegister, writeOp, b.isLt]

/-- The host's write to a register other than `OP` sets that register (R21). -/
theorem step_setRegister {r : HostReg} {n : Nat} (hp : s.phase = .idle) (hr : s.resetIn = none)
    (hst : s.host.prog[s.host.pos]? = some (.write r v)) (hv : s.hostVal v = some n) (hop : r ≠ .op) :
    step s = s.hostAdvance.setRegister r n := by
  rw [step_hostStmt hp hr hst]
  simp [hostStmt, hv, writeRegister, hop]

theorem State.setRegister_srcLen {n : Nat} (h : n ≤ sizeMax s.sizeBits) :
    s.setRegister .srcLen n = .next { s with srcLen := n, written := { s.written with srcLen := true } } := if_pos h

theorem State.setRegister_dstCap {n : Nat} (h : n ≤ sizeMax s.sizeBits) :
    s.setRegister .dstCap n = .next { s with dstCap := n, written := { s.written with dstCap := true } } := if_pos h

theorem State.setRegister_arg {n : Nat} (h : n ≤ sizeMax s.sizeBits) :
    s.setRegister .arg n = .next { s with arg := n, written := { s.written with arg := true } } := if_pos h

end HostWrite

theorem runByte_reserved {b : Byte} (h : decodeOp b = none) (s : State) :
    runByte .command b s = .refused (.reservedOp b) := by
  simp [runByte, decode, h]

/-- Each of the four commands is an issue step (R81). -/
theorem exec_command_eq_issueThen {i : Instr} (hi : Context.command ∈ contexts i) :
    ∃ code operands k, ∀ s, exec i s = s.issueThen code operands k := by
  have hcases : (i = .maxEnc ∨ i = .maxDec) ∨ (i = .encodeCmd ∨ i = .decodeCmd) := by
    cases i <;> simp [contexts] at hi ⊢
  rcases hcases with hest | hcodec
  · obtain ⟨code, k, hexec⟩ := exec_estimator_eq_issueThen hest
    exact ⟨code, _, k, hexec⟩
  · obtain ⟨code, k, hexec⟩ := exec_codec_eq_issueThen hcodec
    exact ⟨code, _, k, hexec⟩

/-- Settles O35: the byte written to `OP` selects no command, and the issue step of a command asks for an IDLE block. -/
theorem reservedOpAndBusyIssueRefused : Obligations.ReservedOpAndBusyIssueRefused := by
  refine ⟨fun s v b hp hr hst hv hb => ?_, fun i s hi hp => ?_⟩
  · rw [step_writeOp hp hr hst hv, runByte_reserved (decodeOp_reserved hb)]
  · obtain ⟨code, operands, k, hexec⟩ := exec_command_eq_issueThen hi
    rw [hexec, State.issueThen_busy code operands k hp]

/-- An IDLE engine reads no byte (R26). -/
theorem State.phase_ne_idle_of_context {s : State} {ctx : Context} (h : s.context = some ctx) : s.phase ≠ .idle := by
  intro hp
  simp [State.context, hp] at h

/-- An engine that holds a byte to read runs it in its context (R76). -/
theorem engineStep_runByte {s : State} {ctx : Context} {b : Byte} (hc : s.context = some ctx) (hrd : s.rd < s.srcLen)
    (hb : s.src.read s.rd = some b) : engineStep s = runByte ctx b s := by
  simp [engineStep, hc, scanStep, hrd, hb]

/-- Settles O36: the host's write to `OP` and the engine's read both run the byte in its context, and a reset that is not due
leaves the step to the agents. -/
theorem stepRunsDecodedInstruction : Obligations.StepRunsDecodedInstruction := by
  refine ⟨fun s v b i hp hr hst hv hi => ?_, fun s ctx b i hr hc hrd hb hi => ?_, fun s hr => ?_, fun s n hr => ?_,
    fun s hr => ?_⟩
  · rw [step_writeOp hp hr hst hv, runByte_eq hi]
    rfl
  · rw [step_busy hr (State.phase_ne_idle_of_context hc), engineStep_runByte (s := s.pollHost) hc hrd hb, runByte_eq hi]
  · simp [step, machineStep, hr]
  · simp [step, machineStep, hr]
  · simp [step, machineStep, hr]

/-! A command record (R83). -/

/-- `RESULT` as a host value stays what it is while the result registers do (R85). -/
theorem State.hostVal_congr {s t : State} (hresult : t.result = s.result) (hw : t.written.results = s.written.results)
    (v : HostVal) : t.hostVal v = s.hostVal v := by
  cases v with
  | lit n => rfl
  | result => simp [State.hostVal_result, hresult, hw]

/-- Settles O38: the host stands at the record's four writes in turn; the first three leave the result registers, and so the
later operands, as they are. -/
theorem commandRecordIssuesCommand : Obligations.CommandRecordIssuesCommand := by
  intro s code vn vk va n k a rest i hp hr hprog hn hk ha hnfit hkfit hafit hi
  have hrecord (m : Nat) : s.host.prog[s.host.pos + m]? = (commandRecord code vn vk va ++ rest)[m]? := by
    rw [← hprog, List.getElem?_drop]
  refine ⟨_, _, _, Eq.trans (step_setRegister hp hr (hrecord 0) hn (by decide)) (State.setRegister_srcLen hnfit),
    Eq.trans (step_setRegister hp hr (hrecord 1) ?_ (by decide)) (State.setRegister_dstCap hkfit),
    Eq.trans (step_setRegister hp hr (hrecord 2) ?_ (by decide)) (State.setRegister_arg hafit), rfl,
    Eq.trans (step_writeOp hp hr (hrecord 3) rfl) (runByte_eq hi _)⟩
  · exact (State.hostVal_congr rfl rfl vk).trans hk
  · exact (State.hostVal_congr rfl rfl va).trans ha

/-! The host's moves on `SRC` and its stream (R85). -/

theorem Memory.bytesAt_eq_none {m : Memory} {i n a : Nat} (hlo : i ≤ a) (hhi : a < i + n) (ha : m.read a = none) :
    m.bytesAt i n = none := by
  rcases hbs : m.bytesAt i n with _ | bs
  · rfl
  · obtain ⟨hlength, hread⟩ := Memory.bytesAt_eq_some.1 hbs
    have hbyte := hread (a - i) (by omega)
    rw [Nat.add_sub_cancel' hlo, ha, List.getElem?_eq_getElem (by omega)] at hbyte
    cases hbyte

/-- An index that holds no byte, after indices that all hold one, is the first absent one. -/
theorem Memory.firstAbsent_eq {m : Memory} {i n a : Nat} (hlo : i ≤ a) (hhi : a < i + n) (ha : m.read a = none)
    (hbefore : ∀ b, i ≤ b → b < a → (m.read b).isSome) : m.firstAbsent i n = a := by
  obtain ⟨hfirst, -, hnone, hall⟩ := Memory.firstAbsent_spec (Memory.bytesAt_eq_none hlo hhi ha)
  rcases Nat.lt_trichotomy (m.firstAbsent i n) a with hlt | heq | hgt
  · simpa [hnone] using hbefore _ hfirst hlt
  · exact heq
  · simpa [ha] using hall a hlo hgt

theorem State.hostLoad_src_read (s : State) (bs : List Byte) (a : Nat) :
    (s.hostLoad bs).src.read a = if a < bs.length then bs[a]? else s.src.read a := by
  simp [State.hostLoad, Memory.read_writeList]

theorem State.hostAppend_src_read (s : State) (bs : List Byte) (a : Nat) :
    (s.hostAppend bs).src.read a =
      if s.host.streamLen ≤ a ∧ a < s.host.streamLen + bs.length then bs[a - s.host.streamLen]? else s.src.read a :=
  Memory.read_writeList _ _ _ _

theorem State.hostMove_present {s : State} {i j : Nat} {bs : List Byte} (h : s.dst.bytesAt i (j - i) = some bs) :
    s.hostMove i j = .next (s.hostLoad bs) := by
  simp [State.hostMove, h]

theorem State.hostMove_absent {s : State} {i j a : Nat} (hlo : i ≤ a) (hhi : a < j) (ha : s.dst.read a = none)
    (hbefore : ∀ b, i ≤ b → b < a → (s.dst.read b).isSome) : s.hostMove i j = .fault (.destinationByteAbsent a) := by
  have hin : a < i + (j - i) := by omega
  simp [State.hostMove, Memory.bytesAt_eq_none hlo hin ha, Memory.firstAbsent_eq hlo hin ha hbefore]

/-- `DROP` within the stream shortens it; past its end its length is a free draw (log entry 9). -/
theorem State.hostDrop_stream (s : State) (k : Nat) :
    (k ≤ s.host.streamLen →
      (s.hostDrop k).host.streamLen = s.host.streamLen - k ∧ (s.hostDrop k).freeCount = s.freeCount) ∧
    (s.host.streamLen < k →
      (s.hostDrop k).host.streamLen = Config.freeLength s.freeCount ∧ (s.hostDrop k).freeCount = s.freeCount + 1) := by
  constructor
  · intro hk
    simp [State.hostDrop, hk]
  · intro hk
    simp [State.hostDrop, Nat.not_le.2 hk]

/-- Settles O39: the step is the host's statement; `LOAD`, `MOVE` and `APPEND` are lists of writes to `SRC`, and `DROP` renumbers
it. -/
theorem hostBufferMoves : Obligations.HostBufferMoves := by
  intro s hp hr
  refine ⟨fun bs hst => ?_, fun i j bs hst hbs => ?_, fun i j a hst hlo hhi ha hbefore => ?_, fun v k hst hv => ?_,
    fun bs hst => ?_⟩ <;> rw [step_hostStmt hp hr hst]
  · exact ⟨s.hostAdvance.hostLoad bs, rfl, rfl, rfl, s.hostAdvance.hostLoad_src_read bs⟩
  · obtain ⟨hlength, hread⟩ := Memory.bytesAt_eq_some.1 hbs
    refine ⟨s.hostAdvance.hostLoad bs, State.hostMove_present hbs, rfl, hlength, fun a => ?_⟩
    rw [State.hostLoad_src_read, hlength]
    split_ifs with ha
    · exact (hread a ha).symm
    · rfl
  · exact State.hostMove_absent (s := s.hostAdvance) hlo hhi ha hbefore
  · refine ⟨s.hostAdvance.hostDrop k, ?_, ?_, ?_, ?_, fun a => ?_⟩
    · simp [hostStmt, hv]
    · rw [State.hostDrop_src]
      exact State.hostDrop_eq s.hostAdvance k
    · exact (State.hostDrop_stream s.hostAdvance k).1
    · exact (State.hostDrop_stream s.hostAdvance k).2
    · rw [State.hostDrop_src]
      exact Memory.read_shiftDown s.src k a
  · exact ⟨s.hostAdvance.hostAppend bs, rfl, rfl, rfl, s.hostAdvance.hostAppend_src_read bs⟩

end Sys2Proof.Machine

/-! SUPPORT. The capacity estimator (spec/40_estimator.md R100 to R105): what MAXENC and MAXDEC answer, and what they leave alone. -/

namespace Sys2Proof.Machine

open Sys2Proof

/-- `max(1, ceil(n / 254))` covers the special case of R100's pseudocode (D1, D2). -/
theorem maxEncodedLength_eq (n : Nat) : maxEncodedLength n = n + 1 + max 1 ((n + 253) / 254) := by
  unfold maxEncodedLength
  split_ifs <;> omega

theorem maxDecodedLength_of_two_le {m : Nat} (h : 2 ≤ m) : maxDecodedLength m = m - 2 := if_pos h

theorem maxDecodedLength_of_lt_two {m : Nat} (h : m < 2) : maxDecodedLength m = 0 := if_neg (Nat.not_le.2 h)

section Estimator

variable {s : State}

theorem exec_maxEnc_of_le (hp : s.phase = .idle) (hw : s.written.arg = true)
    (hfit : maxEncodedLength s.arg ≤ sizeMax s.sizeBits) :
    exec .maxEnc s = .next ((s.latchOp 0x01#8).complete .ok 0 0 (maxEncodedLength s.arg)) := by
  unfold exec execMaxEnc
  rw [State.issueThen_idle _ _ hp (State.firstUnwritten_estimator_none.2 hw)]
  exact if_neg (Nat.not_lt.2 hfit)

theorem exec_maxEnc_of_gt (hp : s.phase = .idle) (hw : s.written.arg = true)
    (hbig : sizeMax s.sizeBits < maxEncodedLength s.arg) : exec .maxEnc s = .refused .resultExceedsSizeMax := by
  unfold exec execMaxEnc
  rw [State.issueThen_idle _ _ hp (State.firstUnwritten_estimator_none.2 hw)]
  exact if_pos hbig

theorem exec_maxDec (hp : s.phase = .idle) (hw : s.written.arg = true) :
    exec .maxDec s = .next ((s.latchOp 0x02#8).complete .ok 0 0 (maxDecodedLength s.arg)) := by
  unfold exec execMaxDec
  exact State.issueThen_idle _ _ hp (State.firstUnwritten_estimator_none.2 hw)

end Estimator

/-- Whatever MAXENC or MAXDEC answers is the completion, at issue, with a value of `ARG` alone (R105). -/
theorem exec_estimator_next {i : Instr} (hi : i = .maxEnc ∨ i = .maxDec) :
    ∃ (code : Byte) (f : Nat → Nat), ∀ s t : State, exec i s = .next t →
      s.phase = .idle ∧ t = (s.latchOp code).complete .ok 0 0 (f s.arg) := by
  rcases hi with rfl | rfl
  · refine ⟨0x01#8, maxEncodedLength, fun s t hx => ?_⟩
    unfold exec execMaxEnc at hx
    obtain ⟨hp, -, hk⟩ := State.issueThen_next.1 hx
    split_ifs at hk
    exact ⟨hp, (Host.Outcome.next.inj hk).symm⟩
  · refine ⟨0x02#8, maxDecodedLength, fun s t hx => ?_⟩
    unfold exec execMaxDec at hx
    obtain ⟨hp, -, hk⟩ := State.issueThen_next.1 hx
    exact ⟨hp, (Host.Outcome.next.inj hk).symm⟩

/-- Settles O5: the issue step completes with the value of R100, or refuses it. -/
theorem maxEncReturnsMaxEncodedLength : Obligations.MaxEncReturnsMaxEncodedLength := by
  intro s hp hw
  rw [← maxEncodedLength_eq]
  exact ⟨fun hfit => ⟨_, exec_maxEnc_of_le hp hw hfit, rfl, rfl, State.complete_completed _ _ _ _ _⟩,
    fun hbig => exec_maxEnc_of_gt hp hw hbig⟩

/-- Settles O6: the issue step completes with the value of R103, in either case of it. -/
theorem maxDecReturnsMaxDecodedLength : Obligations.MaxDecReturnsMaxDecodedLength := by
  intro s hp hw
  refine ⟨_, exec_maxDec hp hw, rfl, rfl, fun h => ?_, fun h => ?_⟩
  · rw [maxDecodedLength_of_two_le h]
    exact State.complete_completed _ _ _ _ _
  · rw [maxDecodedLength_of_lt_two h]
    exact State.complete_completed _ _ _ _ _

/-- Settles O7: an answer is `complete` after the write of `OP`, and the value completed with is a function of `ARG`. -/
theorem estimatorFrame : Obligations.EstimatorFrame := by
  intro i hi
  obtain ⟨code, f, hnext⟩ := exec_estimator_next hi
  refine ⟨fun s t hx => ?_, fun s s' t t' harg _ hx hx' => ?_⟩
  · obtain ⟨hp, rfl⟩ := hnext s t hx
    simp [State.SameOperands, State.SameDatapath, hp]
  · obtain ⟨-, rfl⟩ := hnext s t hx
    obtain ⟨-, rfl⟩ := hnext s' t' hx'
    simp [State.SameResults, harg]

end Sys2Proof.Machine

/-! SUPPORT. The encoding function (spec/41_encoder.md R121): the length of the canonical packet (R101, R122). -/

namespace Sys2Proof.Machine

open Sys2Proof

/-! The equations of R121. -/

@[simp] theorem runsFrom_nil (acc : List Byte) : runsFrom [] acc = [acc] := rfl

@[simp] theorem runsFrom_marker (t acc : List Byte) : runsFrom (marker :: t) acc = acc :: runsFrom t [] := if_pos rfl

section Data

variable {b : Byte} {acc : List Byte}

theorem runsFrom_short (hb : b ≠ marker) (t : List Byte) (h : acc.length + 1 < 254) :
    runsFrom (b :: t) acc = runsFrom t (acc ++ [b]) := by
  rw [runsFrom, if_neg hb, if_neg (by rw [List.length_append]; exact Nat.ne_of_lt h)]

theorem runsFrom_full_last (hb : b ≠ marker) (h : acc.length + 1 = 254) : runsFrom [b] acc = [acc ++ [b]] := by
  rw [runsFrom, if_neg hb, if_pos (by rw [List.length_append]; exact h)]
  rfl

theorem runsFrom_full (hb : b ≠ marker) {t : List Byte} (ht : t ≠ []) (h : acc.length + 1 = 254) :
    runsFrom (b :: t) acc = (acc ++ [b]) :: runsFrom t [] := by
  rw [runsFrom, if_neg hb, if_pos (by rw [List.length_append]; exact h), if_neg (by simpa using ht)]

end Data

@[simp] theorem length_runBytes (d : List Byte) : (runBytes d).length = d.length + 1 := rfl

theorem packetOf_cons (d : List Byte) (rs : List (List Byte)) : packetOf (d :: rs) = runBytes d ++ packetOf rs := by
  simp [packetOf]

theorem packetOf_singleton (d : List Byte) : packetOf [d] = runBytes d ++ [marker] := packetOf_cons d []

@[simp] theorem length_packetOf_cons (d : List Byte) (rs : List (List Byte)) :
    (packetOf (d :: rs)).length = d.length + 1 + (packetOf rs).length := by
  rw [packetOf_cons, List.length_append, length_runBytes]

@[simp] theorem length_packetOf_nil : (packetOf []).length = 1 := rfl

/-- Every packet has its terminator (R70). -/
theorem length_packetOf_pos (rs : List (List Byte)) : 0 < (packetOf rs).length := by
  simp [packetOf]

/-- The induction of R121: the end of the input, a marker, the end of a full run at the end of the input or before it, and a data
byte of a run that goes on, the run so far being always shorter than a full one. -/
theorem runsFrom_induction {P : (x acc : List Byte) → acc.length < 254 → Prop}
    (nil : ∀ acc hacc, P [] acc hacc)
    (zero : ∀ t acc hacc, P t [] (by decide) → P (marker :: t) acc hacc)
    (full_last : ∀ b acc hacc, b ≠ marker → acc.length + 1 = 254 → P [b] acc hacc)
    (full : ∀ b t acc hacc, b ≠ marker → t ≠ [] → acc.length + 1 = 254 → P t [] (by decide) → P (b :: t) acc hacc)
    (short : ∀ b t acc hacc, b ≠ marker → ∀ h : acc.length + 1 < 254, P t (acc ++ [b]) (by simpa using h) →
      P (b :: t) acc hacc)
    (x acc : List Byte) (hacc : acc.length < 254) : P x acc hacc := by
  induction x generalizing acc with
  | nil => exact nil acc hacc
  | cons b t ih =>
    by_cases hb : b = marker
    · subst hb
      exact zero t acc hacc (ih [] (by decide))
    · rcases Nat.lt_or_eq_of_le (Nat.succ_le_of_lt hacc) with hshort | hfull
      · exact short b t acc hacc hb hshort (ih _ _)
      · by_cases ht : t = []
        · subst ht
          exact full_last b acc hacc hb hfull
        · exact full b t acc hacc hb ht hfull (ih [] (by decide))

section Length

variable {x acc : List Byte}

theorem length_runsFrom_pos (hacc : acc.length < 254) : 0 < (runsFrom x acc).length := by
  induction x, acc, hacc using runsFrom_induction with
  | nil => simp
  | zero => simp
  | full_last b acc _ hb hfull => simp [runsFrom_full_last hb hfull]
  | full b t acc _ hb ht hfull => simp [runsFrom_full hb ht hfull]
  | short b t acc _ hb hshort ih => rwa [runsFrom_short hb t hshort]

/-- R122 (c): the packet holds the data bytes, those of the run so far among them, an offset byte for each run and the
terminator. -/
theorem length_packetOf_runsFrom (hacc : acc.length < 254) :
    (packetOf (runsFrom x acc)).length = acc.length + (x.length - x.count marker) + (runsFrom x acc).length + 1 := by
  induction x, acc, hacc using runsFrom_induction with
  | nil => simp
  | zero t acc _ ih =>
    simp [ih]
    omega
  | full_last b acc _ hb hfull => simp [runsFrom_full_last hb hfull, hb]
  | full b t acc _ hb ht hfull ih =>
    have hcount := List.count_le_length (a := marker) (l := t)
    simp [runsFrom_full hb ht hfull, hb, ih]
    omega
  | short b t acc _ hb hshort ih =>
    have hcount := List.count_le_length (a := marker) (l := t)
    simp [runsFrom_short hb t hshort, hb, ih]
    omega

/-- R101: no packet is longer than `max_encoded_length` of the run so far and the input, and a packet of nonzero bytes is that
long. -/
theorem length_packetOf_runsFrom_le (hacc : acc.length < 254) :
    (packetOf (runsFrom x acc)).length ≤ maxEncodedLength (acc.length + x.length) ∧
      (marker ∉ x → (packetOf (runsFrom x acc)).length = maxEncodedLength (acc.length + x.length)) := by
  simp only [maxEncodedLength_eq]
  induction x, acc, hacc using runsFrom_induction with
  | nil acc hacc =>
    simp
    omega
  | zero t acc hacc ih =>
    obtain ⟨hle, -⟩ := ih
    simp at hle ⊢
    omega
  | full_last b acc _ hb hfull =>
    simp [runsFrom_full_last hb hfull, hfull]
  | full b t acc _ hb ht hfull ih =>
    obtain ⟨hle, heq⟩ := ih
    have hpos := List.length_pos_iff.2 ht
    simp [runsFrom_full hb ht hfull, Ne.symm hb] at hle heq ⊢
    exact ⟨by omega, fun hx => by have hlen := heq hx; omega⟩
  | short b t acc _ hb hshort ih =>
    have hlen : acc.length + (b :: t).length = (acc ++ [b]).length + t.length := by
      simp
      omega
    rw [runsFrom_short hb t hshort, hlen]
    simpa [Ne.symm hb] using ih

end Length

/-- R101: `max_encoded_length` is the exact worst case. -/
theorem length_cobsEncodeBytes_le (x : List Byte) :
    (cobsEncodeBytes x).length ≤ maxEncodedLength x.length ∧
      (marker ∉ x → (cobsEncodeBytes x).length = maxEncodedLength x.length) := by
  simpa [cobsEncodeBytes, runsOf] using length_packetOf_runsFrom_le (x := x) (acc := []) (by decide)

/-- Besides the run so far and the data byte, an offset byte and the terminator are always to come. -/
theorem lt_length_packetOf_runsFrom_data {b : Byte} {acc : List Byte} (hb : b ≠ marker) (t : List Byte)
    (hacc : acc.length < 254) :
    acc.length + 2 < (packetOf (runsFrom (b :: t) acc)).length := by
  have hruns := length_runsFrom_pos (x := b :: t) hacc
  have hcount := List.count_le_length (a := marker) (l := t)
  rw [length_packetOf_runsFrom hacc, List.count_cons_of_ne hb, List.length_cons]
  omega

end Sys2Proof.Machine

/-! SUPPORT. The decoding function (spec/42_decoder.md R167): how many bytes it writes, when the capacity matters (R104, R171), and a
source that starts with one run. -/

namespace Sys2Proof.Machine

open Sys2Proof

section DecodeFrom

variable {big cap : Nat}

/-- The decoding function only adds to the bytes it has written. -/
theorem length_le_cobsDecodeFrom_written (x : List Byte) (need : Nat) (prev : Byte) (rd : Nat) (out : List Byte) :
    out.length ≤ (cobsDecodeFrom cap x need prev rd out).written.length := by
  fun_induction cobsDecodeFrom cap x need prev rd out with
  | case1 | case2 | case3 | case5 | case7 | case9 => exact Nat.le_refl _
  | case4 _ _ _ _ _ _ _ _ ih => simp at ih; omega
  | case6 _ _ _ _ _ _ _ ih => exact ih
  | case8 _ _ _ _ _ _ _ _ ih => simp at ih; omega

/-- The capacity is asked only when a byte is written, so every capacity that the written bytes fit in gives the outcome that any
capacity gives, WRITE_OVERFLOW apart (R171). -/
theorem cobsDecodeFrom_eq_of_written_le {x : List Byte} {need : Nat} {prev : Byte} {rd : Nat} {out : List Byte}
    (hst : (cobsDecodeFrom big x need prev rd out).status ≠ .writeOverflow)
    (hfit : (cobsDecodeFrom big x need prev rd out).written.length ≤ cap) :
    cobsDecodeFrom cap x need prev rd out = cobsDecodeFrom big x need prev rd out := by
  have hmore (v : Byte) (y : List Byte) (n : Nat) (p : Byte) (r : Nat) (o : List Byte)
      (h : (cobsDecodeFrom big y n p r (o ++ [v])).written.length ≤ cap) : o.length < cap := by
    have hle := length_le_cobsDecodeFrom_written (cap := big) y n p r (o ++ [v])
    rw [List.length_append, List.length_singleton] at hle
    omega
  fun_induction cobsDecodeFrom big x need prev rd out with
  | case1 => rfl
  | case2 t rd out => rw [cobsDecodeFrom, if_pos rfl, if_pos rfl]
  | case3 t prev rd out hp => rw [cobsDecodeFrom, if_pos rfl, if_neg hp]
  | case4 c t prev rd out hc hz _ ih =>
    rw [← ih hst hfit]
    simp [cobsDecodeFrom, hc, hz, hmore _ _ _ _ _ _ hfit]
  | case5 => cases hst rfl
  | case6 c t prev rd out hc hz ih =>
    rw [← ih hst hfit]
    simp only [cobsDecodeFrom, if_neg hc, if_neg hz]
  | case7 t need prev rd out => rw [cobsDecodeFrom, if_pos rfl]
  | case8 b t need prev rd out hb _ ih =>
    rw [← ih hst hfit]
    simp [cobsDecodeFrom, hb, hmore _ _ _ _ _ _ hfit]
  | case9 => cases hst rfl

/-- Each byte of the source writes at most one byte, and the terminator none. -/
theorem cobsDecodeFrom_written_lt {x : List Byte} {need : Nat} {prev : Byte} {rd : Nat} {out : List Byte}
    (hok : (cobsDecodeFrom cap x need prev rd out).status = .ok) :
    (cobsDecodeFrom cap x need prev rd out).written.length < out.length + x.length := by
  fun_induction cobsDecodeFrom cap x need prev rd out with
  | case1 | case2 | case5 | case7 | case9 => cases hok
  | case3 => simp
  | case4 _ _ _ _ _ _ _ _ ih | case8 _ _ _ _ _ _ _ _ ih =>
    have hlt := ih hok
    simp at hlt ⊢
    omega
  | case6 _ _ _ _ _ _ _ ih =>
    have hlt := ih hok
    simp at hlt ⊢
    omega

/-- A first offset byte writes nothing, so a packet of `m` bytes decodes to at most `m - 2` (R104). -/
theorem cobsDecode_written_le {src : List Byte} (hok : (cobsDecode src cap).status = .ok) :
    (cobsDecode src cap).written.length ≤ maxDecodedLength src.length := by
  cases src with
  | nil => cases hok
  | cons c t =>
    by_cases hc : c = marker
    · subst hc
      cases hok
    · have hfirst : cobsDecode (c :: t) cap = cobsDecodeFrom cap t (c.toNat - 1) c 1 [] := by
        simp [cobsDecode, cobsDecodeFrom, hc]
      rw [hfirst] at hok ⊢
      have hlt := cobsDecodeFrom_written_lt hok
      rw [List.length_nil] at hlt
      rw [List.length_cons, maxDecodedLength_of_two_le (by omega)]
      omega

/-- The data of a run is copied as it stands, if it fits (R165). -/
theorem cobsDecodeFrom_run {d : List Byte} (hd : ∀ b ∈ d, b ≠ marker) (t : List Byte) (prev : Byte) (rd : Nat)
    {out : List Byte} (hfit : out.length + d.length ≤ cap) :
    cobsDecodeFrom cap (d ++ t) d.length prev rd out = cobsDecodeFrom cap t 0 prev (rd + d.length) (out ++ d) := by
  induction d generalizing rd out with
  | nil => simp
  | cons b d ih =>
    obtain ⟨hb, hd⟩ := List.forall_mem_cons.1 hd
    rw [List.length_cons] at hfit
    have hroom : out.length < cap := by omega
    rw [List.cons_append, List.length_cons, cobsDecodeFrom, if_neg hb, if_pos hroom, ih hd _ (by simp; omega)]
    simp [Nat.add_assoc, Nat.add_comm 1]

/-- The data of a run that does not fit is WRITE_OVERFLOW (R165). -/
theorem cobsDecodeFrom_run_overflow {d : List Byte} (hd : ∀ b ∈ d, b ≠ marker) (t : List Byte) (prev : Byte) (rd : Nat)
    {out : List Byte} (hout : out.length ≤ cap) (hfull : cap < out.length + d.length) :
    (cobsDecodeFrom cap (d ++ t) d.length prev rd out).status = .writeOverflow := by
  induction d generalizing rd out with
  | nil =>
    rw [List.length_nil] at hfull
    omega
  | cons b d ih =>
    obtain ⟨hb, hd⟩ := List.forall_mem_cons.1 hd
    rw [List.length_cons] at hfull
    rw [List.cons_append, List.length_cons, cobsDecodeFrom, if_neg hb]
    split_ifs with hroom
    · exact ih hd _ (by simp; omega) (by simp; omega)
    · rfl

/-- The offset byte of a run is its length and one more (R70): no wrap-around. -/
theorem toNat_runOffset {d : List Byte} (hd : d.length ≤ maxRunData) :
    (BitVec.ofNat 8 (d.length + 1)).toNat = d.length + 1 := by
  rw [BitVec.toNat_ofNat]
  exact Nat.mod_eq_of_lt (Nat.lt_of_le_of_lt (Nat.succ_le_succ hd) (by decide))

theorem runOffset_ne_marker {d : List Byte} (hd : d.length ≤ maxRunData) : BitVec.ofNat 8 (d.length + 1) ≠ marker := by
  intro h
  have hlen := toNat_runOffset hd
  simp [h] at hlen

/-- A source that starts with a run (R164): its offset byte writes nothing and asks for the run's data. -/
theorem cobsDecode_runBytes {d : List Byte} (hd : d.length ≤ maxRunData) (t : List Byte) :
    cobsDecode (runBytes d ++ t) cap = cobsDecodeFrom cap (d ++ t) d.length (BitVec.ofNat 8 (d.length + 1)) 1 [] := by
  rw [runBytes, List.cons_append, cobsDecode, cobsDecodeFrom, if_neg (runOffset_ne_marker hd), if_neg (by simp),
    toNat_runOffset hd]
  rfl

/-- A one-run packet decodes to its run's data when that fits (R163 to R165). -/
theorem cobsDecode_oneRun {d : List Byte} (hd : IsRunData d) (hfit : d.length ≤ cap) :
    (cobsDecode (packetOf [d]) cap).status = .ok := by
  obtain ⟨hlen, hdata⟩ := hd
  rw [packetOf_singleton, cobsDecode_runBytes hlen, cobsDecodeFrom_run hdata _ _ _ (by simpa using hfit)]
  simp [cobsDecodeFrom, runOffset_ne_marker hlen]

/-- A one-run packet whose data does not fit (R165). -/
theorem cobsDecode_oneRun_overflow {d : List Byte} (hd : IsRunData d) (hfull : cap < d.length) :
    (cobsDecode (packetOf [d]) cap).status = .writeOverflow := by
  obtain ⟨hlen, hdata⟩ := hd
  rw [packetOf_singleton, cobsDecode_runBytes hlen]
  exact cobsDecodeFrom_run_overflow hdata _ _ _ (Nat.zero_le _) (by simpa using hfull)

end DecodeFrom

/-- Settles O56: an OK outcome has written at most `m - 2` bytes, which fit; the run of the one-run packet is `m - 2` bytes. -/
theorem maxDecodedLengthSuffices : Obligations.MaxDecodedLengthSuffices := by
  refine ⟨fun src big cap hok hcap => ?_, fun m hlo hhi => ?_⟩
  · have hst : (cobsDecode src big).status ≠ .writeOverflow := by simp [hok]
    exact cobsDecodeFrom_eq_of_written_le hst (Nat.le_trans (cobsDecode_written_le hok) hcap)
  · have hrun : IsRunData (List.replicate (m - 2) 0x11#8) :=
      ⟨by rw [List.length_replicate]; exact Nat.sub_le_sub_right hhi 2, fun b hb => by rw [List.eq_of_mem_replicate hb]; decide⟩
    have hpacket : packetOf [List.replicate (m - 2) 0x11#8] =
        BitVec.ofNat 8 (m - 1) :: List.replicate (m - 2) 0x11#8 ++ [0x00#8] := by
      rw [packetOf_singleton, runBytes, List.length_replicate, show m - 2 + 1 = m - 1 by omega]
    rw [← hpacket]
    exact ⟨cobsDecode_oneRun hrun (by simp), cobsDecode_oneRun_overflow hrun (by simp; omega)⟩

end Sys2Proof.Machine

/-! SUPPORT. The encoder's run (spec/41_encoder.md R123, R132): the step machine writes the canonical packet run by run. -/

namespace Sys2Proof.Machine

open Sys2Proof

/-! A buffer that holds a list of bytes. -/

/-- `m[i:]` starts with the bytes `bs`. -/
def Memory.Holds (m : Memory) (i : Nat) (bs : List Byte) : Prop := m.bytesAt i bs.length = some bs

section Holds

variable {m : Memory} {i j : Nat} {b v : Byte} {bs p q : List Byte}

theorem Memory.holds_iff : m.Holds i bs ↔ ∀ k, k < bs.length → m.read (i + k) = bs[k]? := by
  unfold Memory.Holds
  rw [Memory.bytesAt_eq_some]
  simp

theorem Memory.bytesAt_iff_holds {n : Nat} : m.bytesAt i n = some bs ↔ bs.length = n ∧ m.Holds i bs := by
  rw [Memory.bytesAt_eq_some, Memory.holds_iff]
  constructor <;> rintro ⟨rfl, h⟩ <;> exact ⟨rfl, h⟩

@[simp] theorem Memory.holds_nil : m.Holds i [] := rfl

theorem Memory.holds_cons : m.Holds i (b :: bs) ↔ m.read i = some b ∧ m.Holds (i + 1) bs := by
  unfold Memory.Holds
  rw [List.length_cons, Memory.bytesAt]
  constructor
  · intro h
    split at h
    · next c cs hc hcs =>
      cases h
      exact ⟨hc, hcs⟩
    · cases h
  · rintro ⟨hb, hbs⟩
    rw [hb, hbs]

theorem Memory.holds_append : m.Holds i (p ++ q) ↔ m.Holds i p ∧ m.Holds (i + p.length) q := by
  induction p generalizing i with
  | nil => simp
  | cons b p ih =>
    rw [List.cons_append, Memory.holds_cons, ih, Memory.holds_cons, and_assoc, List.length_cons, Nat.add_right_comm i,
      Nat.add_assoc]

/-- A write outside the bytes leaves them as they are. -/
theorem Memory.Holds.write (h : m.Holds i bs) (v : Byte) (hj : j < i ∨ i + bs.length ≤ j) : (m.write j v).Holds i bs := by
  rw [Memory.holds_iff] at h ⊢
  intro k hk
  rw [Memory.read_write_other _ _ (by omega)]
  exact h k hk

/-- A write just behind the bytes adds one to them. -/
theorem Memory.Holds.write_end (h : m.Holds i bs) (v : Byte) (hj : j = i + bs.length) : (m.write j v).Holds i (bs ++ [v]) := by
  subst hj
  rw [Memory.holds_append, Memory.holds_cons]
  exact ⟨h.write v (.inr (Nat.le_refl _)), Memory.read_write_same _ _ _, Memory.holds_nil⟩

end Holds

/-! What changes while a command runs. -/

theorem State.SameOperands.refl (s : State) : s.SameOperands s := ⟨rfl, rfl, rfl, rfl, rfl, rfl, rfl, rfl⟩

theorem State.SameOperands.pollHost {s t : State} (h : s.SameOperands t) : s.SameOperands t.pollHost := by
  simpa [State.SameOperands] using h

theorem State.SameOperands.dstCap_eq {s t : State} (h : s.SameOperands t) : t.dstCap = s.dstCap := by
  obtain ⟨-, -, hcap, -⟩ := h
  exact hcap

/-- `SRC[RD:SRC_LEN]` is `x`: the bytes still to read. -/
def State.SourceLeft (s : State) (x : List Byte) : Prop := s.rd + x.length = s.srcLen ∧ s.src.Holds s.rd x

theorem State.SourceLeft.cons {s : State} {b : Byte} {t : List Byte} (h : s.SourceLeft (b :: t)) :
    s.rd < s.srcLen ∧ s.src.read s.rd = some b ∧ s.advanceRd.SourceLeft t := by
  obtain ⟨hlen, hsrc⟩ := h
  obtain ⟨hb, ht⟩ := Memory.holds_cons.1 hsrc
  rw [List.length_cons] at hlen
  exact ⟨by omega, hb, by simp; omega, ht⟩

theorem State.SourceLeft.srcLen_le {s : State} (h : s.SourceLeft []) : s.srcLen ≤ s.rd := Nat.le_of_eq h.1.symm

theorem State.SourceLeft.rd_lt {s : State} {x : List Byte} (h : s.SourceLeft x) (hx : x ≠ []) : s.rd < s.srcLen := by
  have hpos := List.length_pos_iff.2 hx
  obtain ⟨hlen, -⟩ := h
  omega

/-! A running command, step by step. -/

theorem runCommand_idle {s : State} (hp : s.phase = .idle) (k : Nat) : runCommand k s = .next s := by
  cases k with
  | zero => rfl
  | succ k => simp [runCommand, State.busy_eq_false.2 hp]

theorem runCommand_step {s u : State} (hb : s.phase ≠ .idle) (h : step s = .next u) (k : Nat) :
    runCommand (k + 1) s = runCommand k u := by
  simp [runCommand, State.busy_eq_true.2 hb, h]

/-- A busy engine that holds a byte to read runs it in its context, the host having made its move beside it (R67, R76). -/
theorem step_runByte {s : State} {ctx : Context} {b : Byte} (hr : s.resetIn = none) (hc : s.context = some ctx)
    (hrd : s.rd < s.srcLen) (hb : s.src.read s.rd = some b) : step s = runByte ctx b s.pollHost := by
  rw [step_busy hr (State.phase_ne_idle_of_context hc)]
  exact engineStep_runByte (s := s.pollHost) hc hrd hb

section EncoderSteps

variable {s : State} {b : Byte}

theorem State.context_encScan (hp : s.phase = .encScan) : s.context = some .encScan := by
  simp [State.context, hp]

theorem step_encMarker (hp : s.phase = .encScan) (hr : s.resetIn = none) (hrd : s.rd < s.srcLen)
    (hb : s.src.read s.rd = some marker) :
    step s = .next (s.pollHost.advanceRd.finalizeSlot s.run).reserveSlot := by
  rw [step_runByte hr (State.context_encScan hp) hrd hb, runByte_eq rfl]
  unfold exec execEncMarker
  exact State.readThen_eq (s := s.pollHost) _ hp rfl hrd

theorem step_encData (hp : s.phase = .encScan) (hr : s.resetIn = none) (hrd : s.rd < s.srcLen)
    (hb : s.src.read s.rd = some b) (hne : b ≠ marker) :
    step s = .next (s.pollHost.advanceRd.pushThen b fun s =>
      if s.countRun.runFull then s.countRun.closeFullRun else s.countRun) := by
  have hdecode : decode .encScan [b] = .instr (.encData b) [] := by simp [decode, hne]
  rw [step_runByte hr (State.context_encScan hp) hrd hb, runByte_eq hdecode]
  unfold exec execEncData
  exact State.readThen_eq (s := s.pollHost) _ hp rfl hrd

theorem step_encSourceEnd (hp : s.phase = .encScan) (hr : s.resetIn = none) (hrd : s.srcLen ≤ s.rd) :
    step s = .next s.pollHost.encSourceEnd := by
  rw [step_busy hr (by simp [hp])]
  simp [engineStep, State.context, hp, scanStep, Nat.not_lt.2 hrd, State.sourceEnd]

theorem step_encFinish (hp : s.phase = .encFinish) (hr : s.resetIn = none) : step s = .next s.pollHost.finishEncode := by
  rw [step_busy hr (by simp [hp])]
  simp [engineStep, State.context, hp]

/-- The two steps of ENCODE that read no byte (R125, R129). -/
theorem runCommand_encSourceEnd (hp : s.phase = .encScan) (hr : s.resetIn = none) (hrd : s.srcLen ≤ s.rd) :
    runCommand 2 s = .next s.pollHost.encSourceEnd.pollHost.finishEncode := by
  rw [runCommand_step (by simp [hp]) (step_encSourceEnd hp hr hrd),
    runCommand_step (by simp) (step_encFinish (by simp) (by simpa using hr))]
  rfl

end EncoderSteps

/-! The state of an ENCODE that has written a part of its packet (R130, R132). The command was issued in `s₀`, and `s` is the
state it has come to. -/

/-- `t` is what R123 says an ENCODE with the packet `E`, issued in `s₀`, ends in. -/
def State.EncodesTo (s₀ : State) (E : List Byte) (t : State) : Prop :=
  s₀.SameOperands t ∧
    (E.length ≤ s₀.dstCap →
      t.Completed .ok 0 E.length 0 ∧ t.dst.bytesAt 0 E.length = some E ∧ s₀.DstSameOutside (fun a => a < E.length) t) ∧
    (s₀.dstCap < E.length → t.Completed .writeOverflow 0 0 0 ∧ s₀.DstSameOutside (fun a => a < s₀.dstCap) t)

/-- `DST[0:WR]` is `done`, and nothing else of `DST` has been written. -/
structure State.Filled (s₀ s : State) (done : List Byte) : Prop where
  operands : s₀.SameOperands s
  wr : s.wr = done.length
  fits : s.wr ≤ s.dstCap
  holds : s.dst.Holds 0 done
  outside : s₀.DstSameOutside (fun a => a < s.wr) s

/-- `DST[0:WR]` is `done`, then the pending slot at `OFS_PTR`, then `acc`, the data of the current run, and nothing else of `DST`
has been written. -/
structure State.Scanning (s₀ s : State) (done acc : List Byte) : Prop where
  operands : s₀.SameOperands s
  phase : s.phase = .encScan
  noReset : s.resetIn = none
  pend : s.pend = true
  ofsPtr : s.ofsPtr = done.length
  run : s.run = BitVec.ofNat 8 (acc.length + 1)
  wr : s.wr = done.length + 1 + acc.length
  fits : s.wr ≤ s.dstCap
  holdsDone : s.dst.Holds 0 done
  holdsRun : s.dst.Holds (done.length + 1) acc
  outside : s₀.DstSameOutside (fun a => a < s.wr) s

/-- The command comes to such an end from `s` in at most `k` steps. -/
def State.Encodes (s₀ s : State) (k : Nat) (E : List Byte) : Prop := ∃ t, runCommand k s = .next t ∧ s₀.EncodesTo E t

theorem State.DstSameOutside.write {s₀ s u : State} {n n' i : Nat} {v : Byte} (h : s₀.DstSameOutside (fun a => a < n) s)
    (hn : n ≤ n') (hi : i < n') (hu : u.dst = s.dst.write i v) : s₀.DstSameOutside (fun a => a < n') u := by
  intro a ha
  rw [hu, Memory.read_write_other _ _ (by omega)]
  exact h a (by omega)

section Operations

variable {s₀ s : State} {done acc : List Byte}

theorem State.Scanning.pollHost (h : s₀.Scanning s done acc) : s₀.Scanning s.pollHost done acc :=
  { h with operands := h.operands.pollHost }

theorem State.Scanning.advanceRd (h : s₀.Scanning s done acc) : s₀.Scanning s.advanceRd done acc := { h with }

theorem State.Filled.pollHost (h : s₀.Filled s done) : s₀.Filled s.pollHost done :=
  { h with operands := h.operands.pollHost }

theorem State.Filled.encSourceEnd (h : s₀.Filled s done) : s₀.Filled s.encSourceEnd done := { h with }

theorem State.Filled.dropSlot (h : s₀.Filled s done) : s₀.Filled { s with pend := false } done := { h with }

/-- Finalizing the pending slot completes the current run (R126, R127, R129). -/
theorem State.Scanning.finalizeSlot (h : s₀.Scanning s done acc) :
    s₀.Filled (s.finalizeSlot s.run) (done ++ runBytes acc) where
  operands := h.operands
  wr := by
    rw [State.finalizeSlot_wr, h.wr, List.length_append, length_runBytes]
    omega
  fits := h.fits
  holds := by
    rw [State.finalizeSlot_dst, h.ofsPtr, h.run, Memory.holds_append, runBytes, Memory.holds_cons, Nat.zero_add]
    exact ⟨h.holdsDone.write _ (by omega), Memory.read_write_same _ _ _, h.holdsRun.write _ (by omega)⟩
  outside := h.outside.write (Nat.le_refl _) (by rw [h.ofsPtr, State.finalizeSlot_wr, h.wr]; omega) rfl

/-- A data byte that fits joins the current run (R127). -/
theorem State.Scanning.placeByte (h : s₀.Scanning s done acc) (b : Byte) (hroom : s.wr < s.dstCap) :
    s₀.Scanning (s.placeByte b).countRun done (acc ++ [b]) where
  operands := h.operands
  phase := h.phase
  noReset := h.noReset
  pend := h.pend
  ofsPtr := h.ofsPtr
  run := by
    rw [List.length_append, BitVec.ofNat_add, List.length_singleton, ← h.run]
    rfl
  wr := by
    rw [List.length_append, ← Nat.add_assoc, ← h.wr]
    rfl
  fits := hroom
  holdsDone := h.holdsDone.write _ (by rw [h.wr]; omega)
  holdsRun := h.holdsRun.write_end _ h.wr
  outside := h.outside.write (Nat.le_succ _) (Nat.lt_succ_self _) rfl

/-- The reservation of the next slot starts an empty run (R126, R127). -/
theorem State.Filled.openSlot (h : s₀.Filled s done) (hp : s.phase = .encScan) (hr : s.resetIn = none) (hpend : s.pend = true)
    (hroom : s.wr < s.dstCap) : s₀.Scanning s.openSlot done [] where
  operands := h.operands
  phase := hp
  noReset := hr
  pend := hpend
  ofsPtr := h.wr
  run := rfl
  wr := congrArg (· + 1) h.wr
  fits := hroom
  holdsDone := h.holds
  holdsRun := Memory.holds_nil
  outside := fun a ha => h.outside a fun hlt => ha (Nat.lt_succ_of_lt hlt)

/-- `RUN` reaches 0xFF with the 254th data byte of the run, and not before (R131). -/
theorem State.Scanning.runFull_iff (h : s₀.Scanning s done acc) (hacc : acc.length ≤ 254) :
    s.runFull = true ↔ acc.length = 254 := by
  rw [State.runFull_iff, h.run, ← BitVec.toNat_inj, BitVec.toNat_ofNat]
  simp
  omega

end Operations

/-- The end of a full run with source bytes left (R127). -/
theorem State.closeFullRun_more {s : State} (hrun : s.run = maxOffset) (hrd : s.rd < s.srcLen) :
    s.closeFullRun = (s.finalizeSlot s.run).reserveSlot := by
  rw [hrun]
  exact if_pos (State.sourceRemains_iff.2 hrd)

/-- The end of a full run that ends the input (R127). -/
theorem State.closeFullRun_end {s : State} (hrun : s.run = maxOffset) (hrd : s.srcLen ≤ s.rd) :
    s.closeFullRun = { s.finalizeSlot s.run with pend := false } := by
  rw [hrun]
  exact if_neg fun h => Nat.not_lt.2 hrd (State.sourceRemains_iff.1 h)

section Ends

variable {s₀ s : State} {done acc E : List Byte} {k : Nat}

/-- A failure for want of room, part of the packet being still to come (R130). -/
theorem State.encodesTo_fail {n : Nat} (hops : s₀.SameOperands s) (hout : s₀.DstSameOutside (fun a => a < n) s)
    (hn : n ≤ s.dstCap) (hE : s.dstCap < E.length) : s₀.EncodesTo E (s.fail .writeOverflow 0) := by
  have hcap := hops.dstCap_eq
  refine ⟨hops, fun hle => by omega, fun _ => ⟨State.fail_completed s _ _, fun a ha => ?_⟩⟩
  rw [State.fail_read_above _ _ (by omega)]
  exact hout a (by omega)

/-- The terminator, or WRITE_OVERFLOW in its place (R129). -/
theorem State.Filled.terminate (h : s₀.Filled s done) :
    s₀.EncodesTo (done ++ [marker]) (s.pushThen marker fun s => s.complete .ok 0 s.wr 0) := by
  have hcap := h.operands.dstCap_eq
  have hlen : (done ++ [marker]).length = s.wr + 1 := by rw [List.length_append, h.wr]; rfl
  rcases s.pushThen_cases marker fun s => s.complete .ok 0 s.wr 0 with ⟨hroom, heq⟩ | ⟨hfull, heq⟩ <;> rw [heq]
  · refine ⟨h.operands, fun _ => ?_, fun hlt => by omega⟩
    rw [hlen]
    refine ⟨State.complete_completed _ _ _ _ _, Memory.bytesAt_iff_holds.2 ⟨hlen, ?_⟩, ?_⟩
    · exact h.holds.write_end _ (h.wr.trans (Nat.zero_add _).symm)
    · exact h.outside.write (Nat.le_succ _) (Nat.lt_succ_self _) rfl
  · exact State.encodesTo_fail h.operands h.outside h.fits (by omega)

theorem State.EncodesTo.encodes (h : s₀.EncodesTo E s) (hp : s.phase = .idle) : s₀.Encodes s k E :=
  ⟨s, runCommand_idle hp k, h⟩

theorem State.Encodes.of_step {u : State} (h : s₀.Encodes u k E) (hb : s.phase ≠ .idle) (hstep : step s = .next u) :
    s₀.Encodes s (k + 1) E := by
  obtain ⟨t, ht, hE⟩ := h
  exact ⟨t, (runCommand_step hb hstep k).trans ht, hE⟩

/-- The end of the source after a run that is not full (R125, R129). -/
theorem State.Scanning.encodes_sourceEnd (h : s₀.Scanning s done acc) (hrd : s.srcLen ≤ s.rd) :
    s₀.Encodes s 2 (done ++ runBytes acc ++ [marker]) := by
  refine ⟨_, runCommand_encSourceEnd h.phase h.noReset hrd, ?_⟩
  rw [State.finishEncode, if_pos (by simp [h.pend])]
  exact h.finalizeSlot.pollHost.encSourceEnd.pollHost.terminate

/-- The end of the source after a full run (R125, R129). -/
theorem State.Filled.encodes_sourceEnd (h : s₀.Filled s done) (hp : s.phase = .encScan) (hr : s.resetIn = none)
    (hpend : s.pend = false) (hrd : s.srcLen ≤ s.rd) : s₀.Encodes s 2 (done ++ [marker]) := by
  refine ⟨_, runCommand_encSourceEnd hp hr hrd, ?_⟩
  rw [State.finishEncode, if_neg (by simp [hpend])]
  exact h.pollHost.encSourceEnd.pollHost.terminate

/-- The reservation of the next slot, or WRITE_OVERFLOW in its place (R126, R127): at least the terminator is still to come. -/
theorem State.Filled.encodes_reserveSlot {rs : List (List Byte)} (h : s₀.Filled s done) (hp : s.phase = .encScan)
    (hr : s.resetIn = none) (hpend : s.pend = true)
    (hnext : s₀.Scanning s.openSlot done [] → s₀.Encodes s.openSlot k (done ++ packetOf rs)) :
    s₀.Encodes s.reserveSlot k (done ++ packetOf rs) := by
  have hwr : s.wr < (done ++ packetOf rs).length := by
    rw [List.length_append, h.wr]
    exact Nat.lt_add_of_pos_right (length_packetOf_pos rs)
  rcases s.reserveSlot_cases with ⟨hroom, heq⟩ | ⟨hfull, heq⟩ <;> rw [heq]
  · exact hnext (h.openSlot hp hr hpend hroom)
  · have hE := Nat.lt_of_le_of_lt hfull hwr
    exact (State.encodesTo_fail h.operands h.outside h.fits hE).encodes rfl

/-- The step of a data byte (R127): it joins the run, or WRITE_OVERFLOW in its place. -/
theorem State.Scanning.encodes_encData {b : Byte} {t : List Byte} (h : s₀.Scanning s done acc) (hleft : s.SourceLeft (b :: t))
    (hb : b ≠ marker) (hacc : acc.length < 254)
    (hnext : ∀ u, s₀.Scanning u done (acc ++ [b]) → u.SourceLeft t →
      s₀.Encodes (if u.runFull then u.closeFullRun else u) k (done ++ packetOf (runsFrom (b :: t) acc))) :
    s₀.Encodes s (k + 1) (done ++ packetOf (runsFrom (b :: t) acc)) := by
  obtain ⟨hrd, hread, hrest⟩ := hleft.cons
  have hwr : s.wr < (done ++ packetOf (runsFrom (b :: t) acc)).length := by
    have hlen := lt_length_packetOf_runsFrom_data hb t hacc
    rw [List.length_append, h.wr]
    omega
  have hscan := h.pollHost.advanceRd
  refine State.Encodes.of_step ?_ (by simp [h.phase]) (step_encData h.phase h.noReset hrd hread hb)
  rcases s.pollHost.advanceRd.pushThen_cases b fun s => if s.countRun.runFull then s.countRun.closeFullRun else s.countRun
    with ⟨hroom, heq⟩ | ⟨hfull, heq⟩ <;> rw [heq]
  · exact hnext _ (hscan.placeByte b hroom) hrest
  · have hE := Nat.lt_of_le_of_lt hfull hwr
    exact (State.encodesTo_fail hscan.operands hscan.outside hscan.fits hE).encodes rfl

end Ends

/-- The simulation of R132: with `done` in `DST`, `acc` in the run so far and `x` still to read, ENCODE goes on to write the runs
of R121. -/
theorem State.Scanning.encodes {s₀ s : State} {x done acc : List Byte} (hacc : acc.length < 254) (h : s₀.Scanning s done acc)
    (hleft : s.SourceLeft x) : s₀.Encodes s (x.length + 2) (done ++ packetOf (runsFrom x acc)) := by
  induction x, acc, hacc using runsFrom_induction generalizing s done with
  | nil acc hacc =>
    rw [runsFrom_nil, packetOf_singleton, ← List.append_assoc]
    exact h.encodes_sourceEnd hleft.srcLen_le
  | zero t acc hacc ih =>
    obtain ⟨hrd, hread, hrest⟩ := hleft.cons
    have hfill := h.pollHost.advanceRd.finalizeSlot
    rw [runsFrom_marker, packetOf_cons, ← List.append_assoc]
    refine State.Encodes.of_step ?_ (by simp [h.phase]) (step_encMarker h.phase h.noReset hrd hread)
    exact hfill.encodes_reserveSlot h.phase h.noReset h.pend fun hopen => ih hopen hrest
  | full_last b acc hacc hb hfull =>
    refine h.encodes_encData hleft hb hacc fun u hu hend => ?_
    have hrun := (hu.runFull_iff (by simp [hfull])).2 (by simp [hfull])
    have hrd := hend.srcLen_le
    rw [if_pos hrun, State.closeFullRun_end (State.runFull_iff.1 hrun) hrd, runsFrom_full_last hb hfull, packetOf_singleton,
      ← List.append_assoc]
    exact hu.finalizeSlot.dropSlot.encodes_sourceEnd hu.phase hu.noReset rfl hrd
  | full b t acc hacc hb ht hfull ih =>
    refine h.encodes_encData hleft hb hacc fun u hu hrest => ?_
    have hrun := (hu.runFull_iff (by simp [hfull])).2 (by simp [hfull])
    rw [if_pos hrun, State.closeFullRun_more (State.runFull_iff.1 hrun) (hrest.rd_lt ht), runsFrom_full hb ht hfull, packetOf_cons,
      ← List.append_assoc]
    exact hu.finalizeSlot.encodes_reserveSlot hu.phase hu.noReset hu.pend fun hopen => ih hopen hrest
  | short b t acc hacc hb hshort ih =>
    refine h.encodes_encData hleft hb hacc fun u hu hrest => ?_
    rw [if_neg (by rw [hu.runFull_iff (by simp; omega)]; simp; omega), runsFrom_short hb t hshort]
    exact ih hu hrest

/-- The issue step of ENCODE with room for the first slot reserves it (R124). -/
theorem State.scanning_startEncode (s : State) (hr : s.resetIn = none) (hcap : s.dstCap ≠ 0) :
    s.Scanning (s.latchOp 0x03#8).startEncode [] [] where
  operands := ⟨rfl, rfl, rfl, rfl, rfl, rfl, rfl, rfl⟩
  phase := rfl
  noReset := hr
  pend := rfl
  ofsPtr := rfl
  run := rfl
  wr := rfl
  fits := Nat.pos_of_ne_zero hcap
  holdsDone := Memory.holds_nil
  holdsRun := Memory.holds_nil
  outside := fun _ _ => rfl

/-- ENCODE on an IDLE block with its operands written (R124). -/
theorem exec_encodeCmd {s : State} (hp : s.phase = .idle) (hlen : s.written.srcLen = true) (hcap : s.written.dstCap = true) :
    exec .encodeCmd s =
      .next (if s.dstCap = 0 then (s.latchOp 0x03#8).fail .writeOverflow 0 else (s.latchOp 0x03#8).startEncode) := by
  unfold exec execEncodeCmd
  rw [State.issueThen_idle _ _ hp (State.firstUnwritten_codec_none.2 ⟨hlen, hcap⟩), State.latchOp_dstCap]
  exact (apply_ite _ _ _ _).symm

/-- ENCODE meets its contract (R123, R132). -/
theorem issueAndRun_encodeCmd {s : State} {x : List Byte} (h : s.Ready x) :
    ∃ t, issueAndRun .encodeCmd (s.srcLen + 2) s = .next t ∧ s.EncodesTo (cobsEncodeBytes x) t := by
  obtain ⟨hp, hr, hsrcLen, hdstCap, hsrc⟩ := h
  obtain ⟨hlen, hholds⟩ := Memory.bytesAt_iff_holds.1 hsrc
  unfold issueAndRun
  rw [exec_encodeCmd hp hsrcLen hdstCap]
  split_ifs with hcap
  · have hpos : 0 < (cobsEncodeBytes x).length := length_packetOf_pos _
    have hfail : s.EncodesTo (cobsEncodeBytes x) ((s.latchOp 0x03#8).fail .writeOverflow 0) :=
      State.encodesTo_fail (n := 0) (State.SameOperands.refl s) (fun _ _ => rfl) (Nat.zero_le _) (by simp [hcap, hpos])
    exact hfail.encodes rfl
  · rw [← hlen]
    exact (s.scanning_startEncode hr hcap).encodes (by decide) ⟨(Nat.zero_add _).trans hlen, hholds⟩

/-- Settles O48: by R123 the length of the canonical packet decides the outcome, and R101 bounds that length. -/
theorem encodeCapacityIsExact : Obligations.EncodeCapacityIsExact := by
  intro s x h
  have hlen : x.length = s.srcLen := by
    obtain ⟨-, -, -, -, hsrc⟩ := h
    exact (Memory.bytesAt_iff_holds.1 hsrc).1
  obtain ⟨hle, heq⟩ := length_cobsEncodeBytes_le x
  obtain ⟨t, ht, -, hok, hoverflow⟩ := issueAndRun_encodeCmd h
  rw [hlen] at hle heq
  refine ⟨fun hcap => ⟨t, ht, ?_⟩, fun hcap hx => ⟨t, ht, ?_⟩⟩
  · obtain ⟨⟨hst, -, -, -, -, hidle⟩, -⟩ := hok (by omega)
    exact ⟨State.busy_eq_false.2 hidle, hst⟩
  · have hpos : 0 < maxEncodedLength s.srcLen := by rw [maxEncodedLength_eq]; omega
    obtain ⟨⟨hst, -, -, -, -, hidle⟩, -⟩ := hoverflow (by rw [heq hx]; omega)
    exact ⟨State.busy_eq_false.2 hidle, hst⟩

end Sys2Proof.Machine

/-! SUPPORT. The canonical packet (spec/41_encoder.md R122, R131): its runs are those of the grammar and stand for the input, and the
packets at the full-run boundaries. -/

namespace Sys2Proof.Machine

open Sys2Proof

theorem isRunList_singleton {d : List Byte} : IsRunList [d] ↔ IsRunData d := by simp [IsRunList]

theorem IsRunList.cons {d : List Byte} {rs : List (List Byte)} (hd : IsRunData d) (hrs : IsRunList rs) :
    IsRunList (d :: rs) :=
  ⟨List.cons_ne_nil _ _, List.forall_mem_cons.2 ⟨hd, hrs.2⟩⟩

/-- R72, run by run: a run that is not the last stands for its data and, unless it is full, for the zero after it. -/
theorem decodedOf_cons (d : List Byte) {rs : List (List Byte)} (hrs : rs ≠ []) :
    decodedOf (d :: rs) = d ++ (if d.length = maxRunData then [] else [marker]) ++ decodedOf rs := by
  cases rs with
  | nil => exact absurd rfl hrs
  | cons d' rs => rfl

theorem IsRunData.append_singleton {acc : List Byte} {b : Byte} (hlen : acc.length + 1 ≤ 254) (hacc : ∀ a ∈ acc, a ≠ marker)
    (hb : b ≠ marker) : IsRunData (acc ++ [b]) :=
  ⟨by simpa using hlen, by simpa [or_imp, forall_and] using ⟨hacc, hb⟩⟩

/-- The runs of R121 are those of the grammar, the run so far holding no marker. -/
theorem isRunList_runsFrom {x acc : List Byte} (hacc : acc.length < 254) (hdata : ∀ b ∈ acc, b ≠ marker) :
    IsRunList (runsFrom x acc) := by
  induction x, acc, hacc using runsFrom_induction with
  | nil acc hacc => exact isRunList_singleton.2 ⟨Nat.le_of_lt hacc, hdata⟩
  | zero t acc hacc ih =>
    rw [runsFrom_marker]
    exact IsRunList.cons ⟨Nat.le_of_lt hacc, hdata⟩ (ih (by simp))
  | full_last b acc hacc hb hfull =>
    rw [runsFrom_full_last hb hfull]
    exact isRunList_singleton.2 (IsRunData.append_singleton hacc hdata hb)
  | full b t acc hacc hb ht hfull ih =>
    rw [runsFrom_full hb ht hfull]
    exact IsRunList.cons (IsRunData.append_singleton hacc hdata hb) (ih (by simp))
  | short b t acc hacc hb hshort ih =>
    rw [runsFrom_short hb t hshort]
    exact ih (IsRunData.append_singleton hacc hdata hb).2

/-- The runs of R121 stand for the run so far and the input: a short run ends at a zero of the input, a full run at none. -/
theorem decodedOf_runsFrom {x acc : List Byte} (hacc : acc.length < 254) : decodedOf (runsFrom x acc) = acc ++ x := by
  have hne (t : List Byte) : runsFrom t [] ≠ [] := List.length_pos_iff.1 (length_runsFrom_pos (by decide))
  induction x, acc, hacc using runsFrom_induction with
  | nil acc hacc => simp [decodedOf]
  | zero t acc hacc ih =>
    rw [runsFrom_marker, decodedOf_cons acc (hne t), if_neg (Nat.ne_of_lt hacc), ih]
    simp
  | full_last b acc hacc hb hfull => rw [runsFrom_full_last hb hfull, decodedOf]
  | full b t acc hacc hb ht hfull ih =>
    rw [runsFrom_full hb ht hfull, decodedOf_cons _ (hne t), if_pos (by rw [List.length_append]; exact hfull), ih]
    simp
  | short b t acc hacc hb hshort ih =>
    rw [runsFrom_short hb t hshort, ih]
    simp

theorem isRunList_runsOf (x : List Byte) : IsRunList (runsOf x) := isRunList_runsFrom (by decide) (by simp)

theorem decodedOf_runsOf (x : List Byte) : decodedOf (runsOf x) = x := decodedOf_runsFrom (by decide)

/-- A run on the wire holds no zero (R71): neither its offset byte nor its data is one. -/
theorem marker_notMem_runBytes {d : List Byte} (hd : IsRunData d) : marker ∉ runBytes d := by
  obtain ⟨hlen, hdata⟩ := hd
  rw [runBytes, List.mem_cons, not_or]
  exact ⟨(runOffset_ne_marker hlen).symm, fun h => hdata _ h rfl⟩

/-- Only the terminator of a packet is zero (R71). -/
theorem marker_notMem_flatMap_runBytes {rs : List (List Byte)} (hrs : IsRunList rs) : marker ∉ rs.flatMap runBytes := by
  rw [List.mem_flatMap]
  rintro ⟨d, hd, hmem⟩
  exact marker_notMem_runBytes (hrs.2 d hd) hmem

/-- R122 (c). -/
theorem length_cobsEncodeBytes (x : List Byte) :
    (cobsEncodeBytes x).length = (x.length - x.count marker) + (runsOf x).length + 1 := by
  simpa [cobsEncodeBytes, runsOf] using length_packetOf_runsFrom (x := x) (acc := []) (by decide)

/-- R122 (e): there is an offset byte and the terminator. -/
theorem two_le_length_cobsEncodeBytes (x : List Byte) : 2 ≤ (cobsEncodeBytes x).length := by
  have hruns : 0 < (runsOf x).length := length_runsFrom_pos (by decide)
  rw [length_cobsEncodeBytes]
  omega

/-- Settles O47: grammar, meaning and length each by the induction of R121. -/
theorem canonicalPacketProperties : Obligations.CanonicalPacketProperties := by
  intro x
  obtain ⟨hle, heq⟩ := length_cobsEncodeBytes_le x
  exact ⟨⟨isRunList_runsOf x, rfl, decodedOf_runsOf x⟩,
    ⟨(runsOf x).flatMap runBytes, rfl, marker_notMem_flatMap_runBytes (isRunList_runsOf x)⟩,
    length_cobsEncodeBytes x, hle, fun hx => heq (List.count_eq_zero.1 hx), two_le_length_cobsEncodeBytes x⟩

/-! Stretches of data bytes. -/

section Stretch

variable {d : List Byte} (hd : ∀ b ∈ d, b ≠ marker)

include hd

/-- A stretch of data bytes that leaves the run short joins it. -/
theorem runsFrom_append_short (t : List Byte) {acc : List Byte} (hlen : acc.length + d.length < 254) :
    runsFrom (d ++ t) acc = runsFrom t (acc ++ d) := by
  induction d generalizing acc with
  | nil => simp
  | cons b d ih =>
    obtain ⟨hb, hd⟩ := List.forall_mem_cons.1 hd
    rw [List.length_cons] at hlen
    rw [List.cons_append, runsFrom_short hb _ (by omega), ih hd (by simp; omega), List.append_assoc, List.singleton_append]

/-- 253 data bytes or less are one run. -/
theorem runsOf_short (hlen : d.length < 254) : runsOf d = [d] := by
  have h := runsFrom_append_short hd [] (acc := []) (by simpa using hlen)
  simpa [runsOf] using h

/-- 254 data bytes fill the run up to its last byte. -/
theorem exists_runsFrom_append_last (hlen : d.length = 254) :
    ∃ acc b, d = acc ++ [b] ∧ b ≠ marker ∧ acc.length + 1 = 254 ∧ ∀ t, runsOf (d ++ t) = runsFrom (b :: t) acc := by
  obtain ⟨acc, b, rfl⟩ := List.eq_nil_or_concat' d |>.resolve_left (by rintro rfl; cases hlen)
  have hlast : acc.length + 1 = 254 := by simpa using hlen
  refine ⟨acc, b, rfl, hd b (by simp), hlast, fun t => ?_⟩
  have hacc : ∀ a ∈ acc, a ≠ marker := fun a ha => hd a (List.mem_append_left _ ha)
  have h := runsFrom_append_short hacc (b :: t) (acc := []) (by simp; omega)
  simpa [runsOf] using h

/-- 254 data bytes at the end of the input are one full run. -/
theorem runsOf_full_last (hlen : d.length = 254) : runsOf d = [d] := by
  obtain ⟨acc, b, rfl, hb, hlast, hruns⟩ := exists_runsFrom_append_last hd hlen
  rw [← List.append_nil (acc ++ [b]), hruns, runsFrom_full_last hb hlast, List.append_nil]

/-- 254 data bytes before more input are one full run, and a new run starts. -/
theorem runsOf_full_append (hlen : d.length = 254) {t : List Byte} (ht : t ≠ []) : runsOf (d ++ t) = d :: runsOf t := by
  obtain ⟨acc, b, rfl, hb, hlast, hruns⟩ := exists_runsFrom_append_last hd hlen
  rw [hruns, runsFrom_full hb ht hlast, runsOf]

end Stretch

theorem runBytes_replicate (n : Nat) (b : Byte) :
    runBytes (List.replicate n b) = BitVec.ofNat 8 (n + 1) :: List.replicate n b := by
  rw [runBytes, List.length_replicate]

/-- Settles O49: each input is cut at its full runs, and its packet written out run by run. -/
theorem boundaryPackets : Obligations.BoundaryPackets := by
  intro b hb
  have hdata (n : Nat) : ∀ a ∈ List.replicate n b, a ≠ marker := fun a ha => by rwa [List.eq_of_mem_replicate ha]
  have hfull : (List.replicate 254 b).length = 254 := List.length_replicate
  have hne (n : Nat) : n ≠ 0 → List.replicate n b ≠ [] := fun h => by simpa using h
  have h255 : List.replicate 255 b = List.replicate 254 b ++ List.replicate 1 b := List.replicate_add 254 1 b
  have h508 : List.replicate 508 b = List.replicate 254 b ++ List.replicate 254 b := List.replicate_add 254 254 b
  unfold cobsEncodeBytes
  refine ⟨?_, ?_, ?_, ?_, ?_⟩
  · rw [runsOf_full_last (hdata 254) hfull, packetOf_singleton, runBytes_replicate]
  · rw [runsOf_full_append (hdata 254) hfull (List.cons_ne_nil _ _), packetOf_cons, runBytes_replicate]
    rfl
  · rw [runsOf_short (hdata 253) (by rw [List.length_replicate]; decide), packetOf_singleton, runBytes_replicate]
  · rw [h255, runsOf_full_append (hdata 254) hfull (hne 1 (by decide)),
      runsOf_short (hdata 1) (by rw [List.length_replicate]; decide), packetOf_cons, packetOf_singleton, runBytes_replicate]
    rfl
  · rw [h508, runsOf_full_append (hdata 254) hfull (hne 254 (by decide)), runsOf_full_last (hdata 254) hfull, packetOf_cons,
      packetOf_singleton, runBytes_replicate, List.append_assoc]

end Sys2Proof.Machine

/-! SUPPORT. The encoder's steps (spec/41_encoder.md R124 to R129): the outcome of each class and of the steps that read no byte, and
what each leaves unchanged. -/

namespace Sys2Proof.Machine

open Sys2Proof

/-! The issue step (R124). -/

/-- Settles O9: with no room for slot 0 the command fails at issue, else it starts to scan. -/
theorem encodeIssueStep : Obligations.EncodeIssueStep := by
  intro s hp hlen hcap
  rw [exec_encodeCmd hp hlen hcap]
  refine ⟨fun hzero => ?_, fun hne => ?_⟩
  · rw [if_pos hzero]
    exact ⟨_, rfl, State.fail_completed _ _ _⟩
  · rw [if_neg hne]
    rfl

theorem exec_encodeCmd_next {s t : State} (hx : exec .encodeCmd s = .next t) :
    (s.dstCap = 0 ∧ t = (s.latchOp 0x03#8).fail .writeOverflow 0) ∨ t = (s.latchOp 0x03#8).startEncode := by
  unfold exec execEncodeCmd at hx
  obtain ⟨-, -, hk⟩ := State.issueThen_next.1 hx
  split_ifs at hk with hcap
  · exact .inl ⟨hcap, (Host.Outcome.next.inj hk).symm⟩
  · exact .inr (Host.Outcome.next.inj hk).symm

theorem exec_decodeCmd_next {s t : State} (hx : exec .decodeCmd s = .next t) :
    t = (s.latchOp 0x04#8).startDecode := by
  unfold exec execDecodeCmd at hx
  obtain ⟨-, -, hk⟩ := State.issueThen_next.1 hx
  exact (Host.Outcome.next.inj hk).symm

/-- Settles O25: an ENCODE that completes at issue draws the bytes below `DST_CAP = 0`, which are none. -/
theorem issueStepFrame : Obligations.IssueStepFrame := by
  refine ⟨fun s t hx => ?_, fun s t hx => ?_⟩
  · rcases exec_encodeCmd_next hx with ⟨hcap, rfl⟩ | rfl
    · have hread : s.DstSameOutside (fun _ => False) ((s.latchOp 0x03#8).fail .writeOverflow 0) :=
        fun a _ => State.fail_read_above _ _ (Nat.le_trans (Nat.le_of_eq hcap) (Nat.zero_le a))
      simp [State.SameOperands, State.SameDatapath, hcap, hread]
    · simp [State.SameOperands, State.SameResults, State.DstSameOutside]
  · rw [exec_decodeCmd_next hx]
    simp [State.SameOperands, State.SameResults]

/-! ENC.MARKER (R126). -/

section Marker

variable {s t : State}

theorem exec_encMarker_next : exec .encMarker s = .next t ↔
    s.phase = .encScan ∧ s.rd < s.srcLen ∧ (s.advanceRd.finalizeSlot s.run).reserveSlot = t := by
  unfold exec execEncMarker
  rw [State.readThen_next]
  simp

theorem exec_encMarker_room (hp : s.phase = .encScan) (hrd : s.rd < s.srcLen) (hroom : s.wr < s.dstCap) :
    exec .encMarker s = .next (s.advanceRd.finalizeSlot s.run).openSlot :=
  exec_encMarker_next.2 ⟨hp, hrd, State.reserveSlot_room (s := s.advanceRd.finalizeSlot s.run) hroom⟩

theorem exec_encMarker_full (hp : s.phase = .encScan) (hrd : s.rd < s.srcLen) (hfull : s.dstCap ≤ s.wr) :
    exec .encMarker s = .next ((s.advanceRd.finalizeSlot s.run).fail .writeOverflow 0) :=
  exec_encMarker_next.2 ⟨hp, hrd, State.reserveSlot_full (s := s.advanceRd.finalizeSlot s.run) hfull⟩

end Marker

/-- Settles O10: `RUN` of a pending slot is at most 254, and the reservation fits or fails. -/
theorem encMarkerStep : Obligations.EncMarkerStep := by
  intro s hp hrd
  refine ⟨fun hinv => ?_, fun hfull => ?_, fun hroom => exec_encMarker_room hp hrd hroom⟩
  · obtain ⟨-, -, -, hshort⟩ := hinv.pending hp hrd
    exact hshort
  · exact ⟨_, exec_encMarker_full hp hrd hfull, State.fail_completed _ _ _⟩

/-- Settles O14: the step stores in the slot at `OFS_PTR`, and a failing reservation draws the bytes below `DST_CAP`. -/
theorem encMarkerFrame : Obligations.EncMarkerFrame := by
  intro s t hx
  obtain ⟨hp, -, rfl⟩ := exec_encMarker_next.1 hx
  have hslot (a : Nat) (ha : a ≠ s.ofsPtr) : (s.advanceRd.finalizeSlot s.run).dst.read a = s.dst.read a :=
    Memory.read_write_other _ _ ha
  rcases State.reserveSlot_cases (s.advanceRd.finalizeSlot s.run) with ⟨-, heq⟩ | ⟨-, heq⟩ <;> rw [heq]
  · have hout : s.DstSameOutside (fun a => a = s.ofsPtr) (s.advanceRd.finalizeSlot s.run).openSlot := hslot
    simp [State.SameOperands, State.SameResults, hp, hout]
  · have hout : s.DstSameOutside (fun a => a = s.ofsPtr ∨ a < s.dstCap)
        ((s.advanceRd.finalizeSlot s.run).fail .writeOverflow 0) := by
      intro a ha
      obtain ⟨hofs, habove⟩ := not_or.1 ha
      rw [State.fail_read_above _ _ (by simpa using habove)]
      exact hslot a hofs
    simp [State.SameOperands, hout]

/-! ENC.DATA (R127). -/

/-- The byte read, placed at `WR` and counted. -/
def State.takeData (s : State) (b : Byte) : State := (s.advanceRd.placeByte b).countRun

/-- A full run's byte taken, and its slot finalized with 0xFF. -/
def State.takeLastData (s : State) (b : Byte) : State := (s.takeData b).finalizeSlot maxOffset

section Data

variable {s t : State} {b : Byte}

theorem exec_encData (hp : s.phase = .encScan) (hrd : s.rd < s.srcLen) :
    exec (.encData b) s = .next (s.advanceRd.pushThen b fun s =>
      if s.countRun.runFull then s.countRun.closeFullRun else s.countRun) := by
  unfold exec execEncData
  exact State.readThen_eq _ hp rfl hrd

theorem exec_encData_noRoom (hp : s.phase = .encScan) (hrd : s.rd < s.srcLen) (hfull : s.dstCap ≤ s.wr) :
    exec (.encData b) s = .next (s.advanceRd.fail .writeOverflow 0) := by
  rw [exec_encData hp hrd, State.pushThen_full (s := s.advanceRd) b _ hfull]

theorem exec_encData_short (hp : s.phase = .encScan) (hrd : s.rd < s.srcLen) (hroom : s.wr < s.dstCap)
    (hshort : s.run + 0x01#8 ≠ maxOffset) : exec (.encData b) s = .next (s.takeData b) := by
  rw [exec_encData hp hrd, State.pushThen_room (s := s.advanceRd) b _ hroom, if_neg (mt State.runFull_iff.1 hshort)]
  rfl

theorem exec_encData_full (hp : s.phase = .encScan) (hrd : s.rd < s.srcLen) (hroom : s.wr < s.dstCap)
    (hrun : s.run + 0x01#8 = maxOffset) :
    exec (.encData b) s =
      .next (if s.rd + 1 < s.srcLen then (s.takeLastData b).reserveSlot else { s.takeLastData b with pend := false }) := by
  rw [exec_encData hp hrd, State.pushThen_room (s := s.advanceRd) b _ hroom, if_pos (State.runFull_iff.2 hrun)]
  simp only [State.closeFullRun, State.sourceRemains_iff]
  rfl

/-- What ENC.DATA can do: fail, take a byte of a run that goes on, or take the last byte of a full run. -/
theorem exec_encData_cases (hx : exec (.encData b) s = .next t) :
    s.phase = .encScan ∧
      (t = s.advanceRd.fail .writeOverflow 0 ∨
        (s.run + 0x01#8 ≠ maxOffset ∧ t = s.takeData b) ∨
        (s.wr < s.dstCap ∧ s.run + 0x01#8 = maxOffset ∧
          (t = (s.takeLastData b).reserveSlot ∨ t = { s.takeLastData b with pend := false }))) := by
  have hread := hx
  unfold exec execEncData at hread
  obtain ⟨hp, -, hrd, -⟩ := State.readThen_next.1 hread
  refine ⟨hp, ?_⟩
  rcases Nat.lt_or_ge s.wr s.dstCap with hroom | hfull
  · by_cases hrun : s.run + 0x01#8 = maxOffset
    · rw [exec_encData_full hp hrd hroom hrun] at hx
      cases hx
      exact .inr (.inr ⟨hroom, hrun, ite_eq_or_eq _ _ _⟩)
    · rw [exec_encData_short hp hrd hroom hrun] at hx
      cases hx
      exact .inr (.inl ⟨hrun, rfl⟩)
  · rw [exec_encData_noRoom hp hrd hfull] at hx
    cases hx
    exact .inl rfl

theorem State.takeData_read {a : Nat} (ha : a ≠ s.wr) : (s.takeData b).dst.read a = s.dst.read a :=
  Memory.read_write_other _ _ ha

theorem State.takeLastData_read (a : Nat) (ha : ¬ (a = s.wr ∨ a = s.ofsPtr)) :
    (s.takeLastData b).dst.read a = s.dst.read a := by
  obtain ⟨hwr, hofs⟩ := not_or.1 ha
  exact (Memory.read_write_other _ _ hofs).trans (State.takeData_read hwr)

end Data

/-- Settles O11: the bound of the byte, the full run, the end of the source and the bound of the next slot, in this order. -/
theorem encDataStep : Obligations.EncDataStep := by
  intro s b hp hrd _
  refine ⟨fun hfull => ?_, fun hroom hshort => exec_encData_short hp hrd hroom hshort, fun hroom hrun hmore hfull => ?_,
    fun hroom hrun hmore => ?_, fun hroom hrun hend => ?_⟩
  · exact ⟨_, exec_encData_noRoom hp hrd hfull, State.fail_completed _ _ _⟩
  · rw [exec_encData_full hp hrd hroom hrun, if_pos hmore, State.reserveSlot_full (s := s.takeLastData b) hfull]
    exact ⟨_, rfl, State.fail_completed _ _ _⟩
  · rw [exec_encData_full hp hrd (Nat.lt_of_succ_lt hroom) hrun, if_pos hmore,
      State.reserveSlot_room (s := s.takeLastData b) hroom]
    rfl
  · rw [exec_encData_full hp hrd hroom hrun, if_neg (Nat.not_lt.2 hend)]
    simpa [State.takeLastData, State.takeData] using hrun

/-- Settles O15: the step stores at `WR`, a full run in the slot too, and a failure draws the bytes below `DST_CAP`. -/
theorem encDataFrame : Obligations.EncDataFrame := by
  intro b s t hx
  obtain ⟨hp, hcases⟩ := exec_encData_cases hx
  rcases hcases with rfl | ⟨hrun, rfl⟩ | ⟨hroom, hrun, rfl | rfl⟩
  · have hout (P : Nat → Prop) : s.DstSameOutside (fun a => P a ∨ a < s.dstCap) (s.advanceRd.fail .writeOverflow 0) :=
      fun a ha => State.fail_read_above (s := s.advanceRd) _ _ (Nat.le_of_not_lt fun hlt => ha (.inr hlt))
    simp [State.SameOperands, hout]
  · have hout : s.DstSameOutside (fun a => a = s.wr) (s.takeData b) := fun a ha => State.takeData_read ha
    simpa [State.takeData, State.SameOperands, State.SameResults, hp, hrun] using hout
  · rcases State.reserveSlot_cases (s.takeLastData b) with ⟨-, heq⟩ | ⟨-, heq⟩ <;> rw [heq]
    · have hout : s.DstSameOutside (fun a => a = s.wr ∨ a = s.ofsPtr) (s.takeLastData b).openSlot := State.takeLastData_read
      simpa [State.takeLastData, State.takeData, State.SameOperands, State.SameResults, hp, hrun] using hout
    · have hout : s.DstSameOutside (fun a => a = s.ofsPtr ∨ a < s.dstCap) ((s.takeLastData b).fail .writeOverflow 0) := by
        intro a ha
        obtain ⟨hofs, habove⟩ := not_or.1 ha
        rw [State.fail_read_above (s := s.takeLastData b) _ _ (Nat.le_of_not_lt habove)]
        exact State.takeLastData_read a (not_or.2 ⟨fun hwr => habove (hwr ▸ hroom), hofs⟩)
      simpa [State.takeLastData, State.takeData, State.SameOperands, hrun] using hout
  · have hout : s.DstSameOutside (fun a => a = s.wr ∨ a = s.ofsPtr) { s.takeLastData b with pend := false } :=
      State.takeLastData_read
    simpa [State.takeLastData, State.takeData, State.SameOperands, State.SameResults, hp, hrun] using hout

/-! The steps that read no byte. -/

/-- Settles O12: with no byte left the step changes `PHASE`. -/
theorem encScanSourceEndStep : Obligations.EncScanSourceEndStep :=
  fun _ hp hr hrd => step_encSourceEnd hp hr (Nat.le_of_eq hrd.symm)

/-- The pending slot, if there is one, finalized (R129). -/
def State.finalizePending (s : State) : State := if s.pend then s.finalizeSlot s.run else s

theorem State.finishEncode_eq (s : State) :
    s.finishEncode = s.finalizePending.pushThen marker fun s => s.complete .ok 0 s.wr 0 := rfl

theorem State.finalizePending_eq (s : State) :
    s.finalizePending = { s with dst := if s.pend = true then s.dst.write s.ofsPtr s.run else s.dst } := by
  unfold State.finalizePending
  split_ifs <;> rfl

/-- Settles O13: the pending slot, the bound of the terminator, then the completion. -/
theorem encFinishStep : Obligations.EncFinishStep := by
  intro s hp hr
  rw [step_encFinish hp hr, State.finishEncode_eq, State.finalizePending_eq]
  refine ⟨fun hroom => ?_, fun hfull => ?_⟩
  · rw [State.pushThen_room (s := { s.pollHost with dst := _ }) _ _ hroom]
    exact ⟨_, rfl, State.complete_completed _ _ _ _ _, rfl, rfl⟩
  · rw [State.pushThen_full (s := { s.pollHost with dst := _ }) _ _ hfull]
    exact ⟨_, rfl, State.fail_completed _ _ _⟩

/-! Whole commands. -/

/-- Settles O43: the simulation of R132 ends in what the contract says. -/
theorem encodeMeetsItsContract : Obligations.EncodeMeetsItsContract :=
  fun _ _ h => issueAndRun_encodeCmd h

/-- Settles O50: the empty input has one empty run. -/
theorem emptyInputEncodesToTwoBytes : Obligations.EmptyInputEncodesToTwoBytes := by
  intro s hp hr hlen hcap hzero
  have hready : s.Ready [] := ⟨hp, hr, hlen, hcap, by rw [hzero]; rfl⟩
  obtain ⟨t, ht, -, hok, hoverflow⟩ := issueAndRun_encodeCmd hready
  rw [hzero] at ht
  have hpacket : cobsEncodeBytes [] = [0x01#8, 0x00#8] := rfl
  rw [hpacket] at hok hoverflow
  refine ⟨fun hroom => ?_, fun hfull => ?_⟩
  · obtain ⟨hdone, hbytes, -⟩ := hok hroom
    exact ⟨t, ht, hdone, hbytes⟩
  · obtain ⟨hdone, -⟩ := hoverflow (Nat.lt_succ_of_le hfull)
    exact ⟨t, ht, hdone⟩

end Sys2Proof.Machine

/-! SUPPORT. The decoding function on a packet (spec/42_decoder.md R168, R178): every packet decodes to what it stands for. -/

namespace Sys2Proof.Machine

open Sys2Proof

/-- The zero restored before the run that comes after offset `prev` (R33, R164). -/
def restoredAfter (prev : Byte) : List Byte := if prev ≠ 0x00#8 ∧ prev ≠ maxOffset then [marker] else []

@[simp] theorem restoredAfter_zero : restoredAfter 0x00#8 = [] := rfl

/-- R72 in the terms of R164: the zero after a run is the one that its offset byte restores. -/
theorem restoredAfter_runOffset {d : List Byte} (hd : d.length ≤ maxRunData) :
    restoredAfter (BitVec.ofNat 8 (d.length + 1)) = if d.length = maxRunData then [] else [marker] := by
  have hmax : BitVec.ofNat 8 (d.length + 1) = maxOffset ↔ d.length = maxRunData := by
    rw [← BitVec.toNat_inj, toNat_runOffset hd]
    exact Nat.succ_inj
  rw [restoredAfter, ← ite_not]
  simp [runOffset_ne_marker hd, hmax]

section Packet

variable {cap : Nat}

/-- One run, at any offset position (R164, R165): the zero before it is restored, and its data copied. -/
theorem cobsDecodeFrom_runBytes {d : List Byte} (hd : IsRunData d) (t : List Byte) (prev : Byte) (rd : Nat) {out : List Byte}
    (hfit : (out ++ restoredAfter prev ++ d).length ≤ cap) :
    cobsDecodeFrom cap (runBytes d ++ t) 0 prev rd out =
      cobsDecodeFrom cap t 0 (BitVec.ofNat 8 (d.length + 1)) (rd + (runBytes d).length) (out ++ restoredAfter prev ++ d) := by
  obtain ⟨hlen, hdata⟩ := hd
  have hoffset : cobsDecodeFrom cap (runBytes d ++ t) 0 prev rd out =
      cobsDecodeFrom cap (d ++ t) d.length (BitVec.ofNat 8 (d.length + 1)) (rd + 1) (out ++ restoredAfter prev) := by
    rw [runBytes, List.cons_append, cobsDecodeFrom, if_neg (runOffset_ne_marker hlen), toNat_runOffset hlen,
      Nat.add_sub_cancel, restoredAfter]
    split_ifs with hzero hroom
    · rfl
    · simp [restoredAfter, hzero] at hfit
      omega
    · rw [List.append_nil]
  rw [hoffset, cobsDecodeFrom_run hdata t _ _ (by simpa [Nat.add_assoc] using hfit), length_runBytes, Nat.add_assoc,
    Nat.add_comm 1]

/-- The runs of a packet and its terminator, at any offset position. -/
theorem cobsDecodeFrom_packetOf {rs : List (List Byte)} (hrs : IsRunList rs) (rest : List Byte) (prev : Byte) (rd : Nat)
    {out : List Byte} (hfit : (out ++ restoredAfter prev ++ decodedOf rs).length ≤ cap) :
    cobsDecodeFrom cap (packetOf rs ++ rest) 0 prev rd out =
      ⟨.ok, rd + (packetOf rs).length, (out ++ restoredAfter prev ++ decodedOf rs).length,
        out ++ restoredAfter prev ++ decodedOf rs⟩ := by
  obtain ⟨hne, hdata⟩ := hrs
  induction rs generalizing prev rd out with
  | nil => exact absurd rfl hne
  | cons d rs ih =>
    obtain ⟨hd, hdata⟩ := List.forall_mem_cons.1 hdata
    have hlen := hd.1
    rw [packetOf_cons, List.append_assoc]
    by_cases hnil : rs = []
    · subst hnil
      rw [cobsDecodeFrom_runBytes hd _ _ _ hfit]
      simp [packetOf, cobsDecodeFrom, runOffset_ne_marker hlen, decodedOf, Nat.add_assoc]
    · have hout : out ++ restoredAfter prev ++ decodedOf (d :: rs) =
          out ++ restoredAfter prev ++ d ++ restoredAfter (BitVec.ofNat 8 (d.length + 1)) ++ decodedOf rs := by
        rw [decodedOf_cons d hnil, restoredAfter_runOffset hlen]
        simp only [List.append_assoc]
      rw [hout] at hfit ⊢
      rw [cobsDecodeFrom_runBytes hd _ _ _ (by simp at hfit ⊢; omega), ih _ _ hfit hnil hdata,
        List.length_append (as := runBytes d), Nat.add_assoc]

/-- A source that starts with a packet decodes to what the packet stands for, if that fits (R168). -/
theorem cobsDecode_packetOf {rs : List (List Byte)} (hrs : IsRunList rs) (rest : List Byte) (hfit : (decodedOf rs).length ≤ cap) :
    cobsDecode (packetOf rs ++ rest) cap = ⟨.ok, (packetOf rs).length, (decodedOf rs).length, decodedOf rs⟩ := by
  simpa [cobsDecode] using cobsDecodeFrom_packetOf hrs rest 0x00#8 0 (out := []) (by simpa using hfit)

/-- R178: the canonical packet decodes to the input, if that fits. -/
theorem cobsDecode_cobsEncodeBytes {x : List Byte} (hfit : x.length ≤ cap) :
    cobsDecode (cobsEncodeBytes x) cap = ⟨.ok, (cobsEncodeBytes x).length, x.length, x⟩ := by
  have h := cobsDecode_packetOf (isRunList_runsOf x) [] (cap := cap) (by rwa [decodedOf_runsOf])
  rwa [List.append_nil, decodedOf_runsOf] at h

end Packet

end Sys2Proof.Machine

/-! SUPPORT. The decoder's run (spec/42_decoder.md R167, R180): the step machine does what the decoding function says, byte
by byte. -/

namespace Sys2Proof.Machine

open Sys2Proof

/-! The decoder's steps, the host making its move beside each (R67). -/

section DecoderSteps

variable {s : State} {b : Byte}

theorem step_decSourceEnd (hp : s.phase = .decAwaitOffset ∨ s.phase = .decCopyRun) (hr : s.resetIn = none)
    (hrd : s.srcLen ≤ s.rd) : step s = .next s.pollHost.decSourceEnd := by
  rcases hp with hp | hp <;> rw [step_busy hr (by simp [hp])] <;>
    simp [engineStep, State.context, hp, scanStep, Nat.not_lt.2 hrd, State.sourceEnd]

theorem State.context_decAwaitFirst (hp : s.phase = .decAwaitOffset) (hprev : s.prev = 0x00#8) :
    s.context = some .decAwaitFirst := by
  simp [State.context, hp, hprev]

theorem State.context_decAwaitNext (hp : s.phase = .decAwaitOffset) (hprev : s.prev ≠ 0x00#8) :
    s.context = some .decAwaitNext := by
  simp [State.context, hp, hprev]

theorem State.context_decCopyRun (hp : s.phase = .decCopyRun) : s.context = some .decCopyRun := by
  simp [State.context, hp]

theorem step_decZeroFirst (hp : s.phase = .decAwaitOffset) (hr : s.resetIn = none) (hrd : s.rd < s.srcLen)
    (hb : s.src.read s.rd = some marker) (hprev : s.prev = 0x00#8) :
    step s = .next (s.pollHost.advanceRd.fail .unexpectedZero (s.rd + 1)) := by
  rw [step_runByte hr (State.context_decAwaitFirst hp hprev) hrd hb, runByte_eq rfl]
  unfold exec execDecZeroFirst
  exact State.readThen_eq (s := s.pollHost) _ hp (State.firstOffset_iff.2 hprev) hrd

theorem step_decTerminator (hp : s.phase = .decAwaitOffset) (hr : s.resetIn = none) (hrd : s.rd < s.srcLen)
    (hb : s.src.read s.rd = some marker) (hprev : s.prev ≠ 0x00#8) :
    step s = .next (s.pollHost.advanceRd.complete .ok (s.rd + 1) s.wr 0) := by
  rw [step_runByte hr (State.context_decAwaitNext hp hprev) hrd hb, runByte_eq rfl]
  unfold exec execDecTerminator
  exact State.readThen_eq (s := s.pollHost) _ hp (by simp [State.firstOffset, hprev]) hrd

/-- Both offset classes do the same (R164). -/
theorem exec_decodeOffset (hp : s.phase = .decAwaitOffset) (hrd : s.rd < s.srcLen) (c : Byte) :
    exec (decodeOffset c) s = .next (s.advanceRd.takeOffset c) := by
  by_cases hmax : c = maxOffset
  · rw [hmax, decodeOffset_maxOffset]
    unfold exec execDecFullOffset
    exact State.readThen_eq _ hp rfl hrd
  · rw [decodeOffset_of_ne hmax]
    unfold exec execDecShortOffset
    exact State.readThen_eq _ hp rfl hrd

theorem step_decOffset (hp : s.phase = .decAwaitOffset) (hr : s.resetIn = none) (hrd : s.rd < s.srcLen)
    (hb : s.src.read s.rd = some b) (hne : b ≠ marker) : step s = .next (s.pollHost.advanceRd.takeOffset b) := by
  have hctx : ∃ ctx, s.context = some ctx ∧ (ctx = .decAwaitFirst ∨ ctx = .decAwaitNext) := by
    by_cases hprev : s.prev = 0x00#8
    · exact ⟨_, State.context_decAwaitFirst hp hprev, .inl rfl⟩
    · exact ⟨_, State.context_decAwaitNext hp hprev, .inr rfl⟩
  obtain ⟨ctx, hc, hctx⟩ := hctx
  rw [step_runByte hr hc hrd hb, runByte_eq (decode_offset hctx hne [])]
  exact exec_decodeOffset (s := s.pollHost) hp hrd b

theorem step_decZeroInRun (hp : s.phase = .decCopyRun) (hr : s.resetIn = none) (hrd : s.rd < s.srcLen)
    (hb : s.src.read s.rd = some marker) : step s = .next (s.pollHost.advanceRd.fail .unexpectedZero (s.rd + 1)) := by
  rw [step_runByte hr (State.context_decCopyRun hp) hrd hb, runByte_eq rfl]
  unfold exec execDecZeroInRun
  exact State.readThen_eq (s := s.pollHost) _ hp rfl hrd

theorem step_decData (hp : s.phase = .decCopyRun) (hr : s.resetIn = none) (hrd : s.rd < s.srcLen)
    (hb : s.src.read s.rd = some b) (hne : b ≠ marker) :
    step s = .next (s.pollHost.advanceRd.pushThen b fun s => s.countDown) := by
  have hdecode : decode .decCopyRun [b] = .instr (.decData b) [] := by simp [decode, hne]
  rw [step_runByte hr (State.context_decCopyRun hp) hrd hb, runByte_eq hdecode]
  unfold exec execDecData
  exact State.readThen_eq (s := s.pollHost) _ hp rfl hrd

end DecoderSteps

/-! The state of a DECODE that runs. The command was issued in `s₀`, and `s` is the state it has come to. -/

/-- `t` is what R167 says a DECODE, issued in `s₀`, ends in, `R` being what the decoding function returns. -/
def State.DecodesTo (s₀ : State) (R : DecodeResult) (t : State) : Prop :=
  s₀.SameOperands t ∧ t.Completed R.status R.consumed R.produced 0 ∧
    (R.status = .ok →
      t.dst.bytesAt 0 R.produced = some R.written ∧ s₀.DstSameOutside (fun a => a < R.produced) t) ∧
    (R.status ≠ .ok → s₀.DstSameOutside (fun a => a < s₀.dstCap) t)

/-- The command comes to such an end from `s` in at most `k` steps. -/
def State.Decodes (s₀ s : State) (k : Nat) (R : DecodeResult) : Prop := ∃ t, runCommand k s = .next t ∧ s₀.DecodesTo R t

/-- `out` is written, and `need` data bytes of the current run are still to copy: none at an offset position. -/
structure State.Decoding (s₀ s : State) (need : Nat) (out : List Byte) : Prop where
  filled : s₀.Filled s out
  rem : s.rem.toNat = need
  phase : s.phase = runPhase s.rem

section Decoding

variable {s₀ s : State} {need k : Nat} {out : List Byte} {R : DecodeResult}

theorem State.SameOperands.noReset {t : State} (h : s.SameOperands t) (hr : s.resetIn = none) : t.resetIn = none := by
  obtain ⟨-, -, -, -, -, -, -, hreset⟩ := h
  rw [hreset, hr]

theorem State.Filled.advanceRd (h : s₀.Filled s out) : s₀.Filled s.advanceRd out := { h with }

theorem State.Filled.placeByte (h : s₀.Filled s out) (b : Byte) (hroom : s.wr < s.dstCap) :
    s₀.Filled (s.placeByte b) (out ++ [b]) where
  operands := h.operands
  wr := by rw [State.placeByte_wr, h.wr, List.length_append]; rfl
  fits := hroom
  holds := h.holds.write_end _ (h.wr.trans (Nat.zero_add _).symm)
  outside := h.outside.write (Nat.le_succ _) (Nat.lt_succ_self _) rfl

theorem State.Decoding.busy (h : s₀.Decoding s need out) : s.phase ≠ .idle := by
  rw [h.phase]
  exact runPhase_ne_idle

theorem State.Decoding.phase_await (h : s₀.Decoding s 0 out) : s.phase = .decAwaitOffset := by
  have hrem : s.rem = 0x00#8 := BitVec.eq_of_toNat_eq h.rem
  rw [h.phase, hrem, runPhase_zero]

theorem State.Decoding.phase_copy (h : s₀.Decoding s (need + 1) out) : s.phase = .decCopyRun := by
  have hne : s.rem ≠ 0x00#8 := fun hz => by simpa [hz] using h.rem
  rw [h.phase, runPhase_of_ne hne]

theorem State.Decoding.phase_cases (h : s₀.Decoding s need out) : s.phase = .decAwaitOffset ∨ s.phase = .decCopyRun := by
  rw [h.phase]
  exact runPhase_cases s.rem

/-! What the operations leave of the source to read. -/

@[simp] theorem State.sourceLeft_pollHost_advanceRd {x : List Byte} :
    s.pollHost.advanceRd.SourceLeft x ↔ s.advanceRd.SourceLeft x := Iff.rfl
@[simp] theorem State.sourceLeft_placeByte {x : List Byte} (v : Byte) : (s.placeByte v).SourceLeft x ↔ s.SourceLeft x := Iff.rfl
@[simp] theorem State.sourceLeft_loadRun {x : List Byte} (c : Byte) : (s.loadRun c).SourceLeft x ↔ s.SourceLeft x := Iff.rfl
@[simp] theorem State.sourceLeft_countDown {x : List Byte} : s.countDown.SourceLeft x ↔ s.SourceLeft x := Iff.rfl

/-- A nonzero offset byte starts a run of as many data bytes as it says (R164). -/
theorem State.Filled.loadRun (h : s₀.Filled s out) {c : Byte} (hc : c ≠ marker) :
    s₀.Decoding (s.loadRun c) (c.toNat - 1) out where
  filled := { h with }
  rem := remOfOffset_toNat hc
  phase := rfl

/-- A data byte copied is one less to copy (R165). -/
theorem State.Filled.countDown (h : s₀.Filled s out) (hrem : s.rem.toNat = need + 1) :
    s₀.Decoding s.countDown need out where
  filled := { h with }
  rem := by
    rw [State.countDown_rem]
    bv_omega
  phase := rfl

theorem State.DecodesTo.decodes (h : s₀.DecodesTo R s) (hp : s.phase = .idle) : s₀.Decodes s k R :=
  ⟨s, runCommand_idle hp k, h⟩

theorem State.Decodes.of_step {u : State} (h : s₀.Decodes u k R) (hb : s.phase ≠ .idle) (hstep : step s = .next u) :
    s₀.Decodes s (k + 1) R := by
  obtain ⟨t, ht, hR⟩ := h
  exact ⟨t, (runCommand_step hb hstep k).trans ht, hR⟩

/-- A failure promises nothing of `DST` below `DST_CAP` (R213). -/
theorem State.Filled.decodes_fail (h : s₀.Filled s out) {st : Status} (hst : st ≠ .ok) (c : Nat) :
    s₀.Decodes (s.fail st c) k ⟨st, c, 0, out⟩ := by
  have hcap := h.operands.dstCap_eq
  have hfits := h.fits
  refine State.DecodesTo.decodes ⟨h.operands, State.fail_completed s _ _, fun hok => absurd hok hst, fun _ a ha => ?_⟩ rfl
  rw [State.fail_read_above _ _ (by omega)]
  exact h.outside a (by omega)

/-- The terminator completes with what is written (R163). -/
theorem State.Filled.decodes_complete (h : s₀.Filled s out) (c : Nat) :
    s₀.Decodes (s.complete .ok c s.wr 0) k ⟨.ok, c, out.length, out⟩ := by
  rw [h.wr]
  refine State.DecodesTo.decodes ⟨h.operands, State.complete_completed _ _ _ _ _, fun _ => ⟨h.holds, ?_⟩, absurd rfl⟩ rfl
  rw [← h.wr]
  exact h.outside

/-- A bounded write goes on, or fails with WRITE_OVERFLOW, as the decoding function does (R164, R165). -/
theorem State.Filled.decodes_pushThen (h : s₀.Filled s out) (v : Byte) {f : State → State}
    (hnext : s.wr < s.dstCap → s₀.Decodes (f (s.placeByte v)) k R) :
    s₀.Decodes (s.pushThen v f) k (if out.length < s₀.dstCap then R else ⟨.writeOverflow, 0, 0, out⟩) := by
  have hcap := h.operands.dstCap_eq
  have hwr := h.wr
  rcases s.pushThen_cases v f with ⟨hroom, heq⟩ | ⟨hfull, heq⟩ <;> rw [heq]
  · rw [if_pos (by omega)]
    exact hnext hroom
  · rw [if_neg (by omega)]
    exact h.decodes_fail (by simp) 0

end Decoding

/-- The simulation of R180: with `out` in `DST`, `need` bytes of the run to copy and `x` still to read, DECODE goes on as the
decoding function does. -/
theorem State.Decoding.decodes {s₀ s : State} {x out : List Byte} {need : Nat} (hr : s₀.resetIn = none)
    (h : s₀.Decoding s need out) (hleft : s.SourceLeft x) :
    s₀.Decodes s (x.length + 1) (cobsDecodeFrom s₀.dstCap x need s.prev s.rd out) := by
  induction x generalizing s need out with
  | nil =>
    have hreset := h.filled.operands.noReset hr
    refine State.Decodes.of_step ?_ h.busy (step_decSourceEnd h.phase_cases hreset hleft.srcLen_le)
    rw [cobsDecodeFrom]
    exact h.filled.pollHost.decodes_fail (by simp) 0
  | cons b t ih =>
    obtain ⟨hrd, hread, hrest⟩ := hleft.cons
    have hreset := h.filled.operands.noReset hr
    have hfill := h.filled.pollHost.advanceRd
    cases need with
    | zero =>
      have hp := h.phase_await
      by_cases hb : b = marker
      · subst hb
        rw [cobsDecodeFrom, if_pos rfl]
        by_cases hprev : s.prev = 0x00#8
        · rw [if_pos hprev]
          exact (hfill.decodes_fail (by simp) _).of_step h.busy (step_decZeroFirst hp hreset hrd hread hprev)
        · rw [if_neg hprev]
          exact (hfill.decodes_complete _).of_step h.busy (step_decTerminator hp hreset hrd hread hprev)
      · refine State.Decodes.of_step ?_ h.busy (step_decOffset hp hreset hrd hread hb)
        rw [cobsDecodeFrom, if_neg hb, State.takeOffset]
        by_cases hzero : s.prev ≠ 0x00#8 ∧ s.prev ≠ maxOffset
        · rw [if_pos hzero, if_pos ((State.restoresZero_iff (s := s.pollHost.advanceRd)).2 hzero)]
          refine hfill.decodes_pushThen marker fun hroom => ?_
          simpa using ih ((hfill.placeByte marker hroom).loadRun hb) (by simpa using hrest)
        · rw [if_neg hzero, if_neg (mt (State.restoresZero_iff (s := s.pollHost.advanceRd)).1 hzero)]
          simpa using ih (hfill.loadRun hb) (by simpa using hrest)
    | succ need =>
      have hp := h.phase_copy
      by_cases hb : b = marker
      · subst hb
        rw [cobsDecodeFrom, if_pos rfl]
        exact (hfill.decodes_fail (by simp) _).of_step h.busy (step_decZeroInRun hp hreset hrd hread)
      · rw [cobsDecodeFrom, if_neg hb]
        refine State.Decodes.of_step ?_ h.busy (step_decData hp hreset hrd hread hb)
        refine hfill.decodes_pushThen b fun hroom => ?_
        simpa using ih ((hfill.placeByte b hroom).countDown h.rem) (by simpa using hrest)

/-- DECODE on an IDLE block with its operands written (R161). -/
theorem exec_decodeCmd {s : State} (hp : s.phase = .idle) (hlen : s.written.srcLen = true) (hcap : s.written.dstCap = true) :
    exec .decodeCmd s = .next (s.latchOp 0x04#8).startDecode := by
  unfold exec execDecodeCmd
  exact State.issueThen_idle _ _ hp (State.firstUnwritten_codec_none.2 ⟨hlen, hcap⟩)

/-- The issue step of DECODE waits for an offset, with nothing written (R161). -/
theorem State.decoding_startDecode (s : State) :
    s.Decoding (s.latchOp 0x04#8).startDecode 0 [] where
  filled :=
    { operands := ⟨rfl, rfl, rfl, rfl, rfl, rfl, rfl, rfl⟩
      wr := rfl
      fits := Nat.zero_le _
      holds := Memory.holds_nil
      outside := fun _ _ => rfl }
  rem := rfl
  phase := rfl

/-- DECODE meets its function (R167, R180). -/
theorem issueAndRun_decodeCmd {s : State} {x : List Byte} (h : s.Ready x) :
    ∃ t, issueAndRun .decodeCmd (s.srcLen + 1) s = .next t ∧ s.DecodesTo (cobsDecode x s.dstCap) t := by
  obtain ⟨hp, hr, hsrcLen, hdstCap, hsrc⟩ := h
  obtain ⟨hlen, hholds⟩ := Memory.bytesAt_iff_holds.1 hsrc
  unfold issueAndRun
  rw [exec_decodeCmd hp hsrcLen hdstCap, ← hlen]
  exact State.Decoding.decodes hr s.decoding_startDecode ⟨(Nat.zero_add _).trans hlen, hholds⟩

/-- Settles O52: ENCODE ends with the canonical packet, which fits, and DECODE of that packet does what the decoding
function does. -/
theorem machineRoundTrip : Obligations.MachineRoundTrip := by
  intro s x h hcap
  obtain ⟨t, ht, -, hok, -⟩ := issueAndRun_encodeCmd h
  obtain ⟨⟨hst, -, hproduced, -, -, hidle⟩, hbytes, -⟩ := hok (Nat.le_trans (length_cobsEncodeBytes_le x).1 hcap)
  refine ⟨t, cobsEncodeBytes x, ht, State.busy_eq_false.2 hidle, hst, by rwa [hproduced], fun u hu _ hroom => ?_⟩
  obtain ⟨v, hv, -, hdone, hdecoded, -⟩ := issueAndRun_decodeCmd hu
  rw [cobsDecode_cobsEncodeBytes hroom] at hdone hdecoded
  obtain ⟨hx, -⟩ := hdecoded rfl
  exact ⟨v, hv, hdone, hx⟩

end Sys2Proof.Machine

/-! SUPPORT. The decoder's steps (spec/42_decoder.md R161 to R166): the outcome of each class, the order of a step's checks, and what
each class leaves unchanged. -/

namespace Sys2Proof.Machine

open Sys2Proof

/-- Settles O16: the issue step latches `OP` and sets the decoder's initial values. -/
theorem decodeIssueStep : Obligations.DecodeIssueStep :=
  fun _ hp hlen hcap => exec_decodeCmd hp hlen hcap

/-- Settles O17: with no byte left the step fails before it reads. -/
theorem decAwaitSourceEndStep : Obligations.DecAwaitSourceEndStep :=
  fun _ hp hr hrd => ⟨_, step_decSourceEnd (.inl hp) hr hrd, State.fail_completed _ _ _, rfl⟩

/-! The three classes that always complete (R163, R165). -/

section Completions

variable {s t : State}

theorem exec_decZeroFirst_next : exec .decZeroFirst s = .next t ↔
    s.phase = .decAwaitOffset ∧ s.prev = 0x00#8 ∧ s.rd < s.srcLen ∧ s.advanceRd.fail .unexpectedZero (s.rd + 1) = t := by
  unfold exec execDecZeroFirst
  rw [State.readThen_next, State.firstOffset_iff]
  rfl

theorem exec_decTerminator_next : exec .decTerminator s = .next t ↔
    s.phase = .decAwaitOffset ∧ s.prev ≠ 0x00#8 ∧ s.rd < s.srcLen ∧ s.advanceRd.complete .ok (s.rd + 1) s.wr 0 = t := by
  unfold exec execDecTerminator
  rw [State.readThen_next, Bool.not_eq_true', ← Bool.not_eq_true, State.firstOffset_iff]
  rfl

theorem exec_decZeroInRun_next : exec .decZeroInRun s = .next t ↔
    s.phase = .decCopyRun ∧ s.rd < s.srcLen ∧ s.advanceRd.fail .unexpectedZero (s.rd + 1) = t := by
  unfold exec execDecZeroInRun
  rw [State.readThen_next]
  simp

/-- A failure after a byte read leaves `DST` at and above `DST_CAP` (R213). -/
theorem State.dstSameOutside_advanceRd_fail (s : State) (st : Status) (c : Nat) :
    s.DstSameOutside (fun a => a < s.dstCap) (s.advanceRd.fail st c) :=
  fun _ ha => State.fail_read_above (s := s.advanceRd) _ _ (Nat.le_of_not_lt ha)

end Completions

/-- Settles O18: `PREV` tells the first byte from a terminator. -/
theorem decZeroAtOffsetStep : Obligations.DecZeroAtOffsetStep := by
  intro s hp hrd
  refine ⟨fun hprev => ⟨fun hinv => ?_, ?_⟩, fun hprev => ?_⟩
  · obtain ⟨hfirst, -⟩ := hinv (.inl hp)
    rw [hfirst.1 hprev]
  · exact ⟨_, exec_decZeroFirst_next.2 ⟨hp, hprev, hrd, rfl⟩, rfl, State.fail_completed _ _ _⟩
  · exact ⟨_, exec_decTerminator_next.2 ⟨hp, hprev, hrd, rfl⟩, rfl, State.complete_completed _ _ _ _ _, rfl⟩

/-- Settles O24: a terminator is a completion after the read, the two others are failures after it. -/
theorem decCompletionFrame : Obligations.DecCompletionFrame := by
  intro i hi s t hx
  have hout := s.dstSameOutside_advanceRd_fail .unexpectedZero (s.rd + 1)
  rcases hi with rfl | rfl | rfl
  · obtain ⟨-, -, -, rfl⟩ := exec_decZeroFirst_next.1 hx
    simp [State.SameOperands, State.SameDatapath, hout]
  · obtain ⟨-, -, -, rfl⟩ := exec_decTerminator_next.1 hx
    simp [State.SameOperands, State.SameDatapath]
  · obtain ⟨-, -, rfl⟩ := exec_decZeroInRun_next.1 hx
    simp [State.SameOperands, State.SameDatapath, hout]

/-! The two offset classes (R164). -/

section Offset

variable {s t : State} {c : Byte}

theorem State.takeOffset_restore (hzero : s.prev ≠ 0x00#8) (hmax : s.prev ≠ maxOffset) (c : Byte) :
    s.takeOffset c = s.pushThen marker fun s => s.loadRun c := if_pos (State.restoresZero_iff.2 ⟨hzero, hmax⟩)

theorem State.takeOffset_plain (hprev : s.prev = 0x00#8 ∨ s.prev = maxOffset) (c : Byte) :
    s.takeOffset c = s.loadRun c := by
  refine if_neg (mt State.restoresZero_iff.1 ?_)
  rintro ⟨hzero, hmax⟩
  exact hprev.elim hzero hmax

/-- What an offset byte can do: load its run, restore the elided zero first, or fail at that zero. -/
theorem State.takeOffset_cases (s : State) (c : Byte) :
    s.takeOffset c = s.loadRun c ∨
      (s.prev ≠ 0x00#8 ∧ s.prev ≠ maxOffset ∧ s.takeOffset c = (s.placeByte marker).loadRun c) ∨
        s.takeOffset c = s.fail .writeOverflow 0 := by
  by_cases hplain : s.prev = 0x00#8 ∨ s.prev = maxOffset
  · exact .inl (State.takeOffset_plain hplain c)
  · obtain ⟨hzero, hmax⟩ := not_or.1 hplain
    rw [State.takeOffset_restore hzero hmax]
    rcases s.pushThen_cases marker (fun s => s.loadRun c) with ⟨-, heq⟩ | ⟨-, heq⟩
    · exact .inr (.inl ⟨hzero, hmax, heq⟩)
    · exact .inr (.inr heq)

theorem exec_offset_next {i : Instr} (hi : i = .decFullOffset ∨ ∃ c, i = .decShortOffset c) (hx : exec i s = .next t) :
    ∃ c, t = s.advanceRd.takeOffset c := by
  rcases hi with rfl | ⟨c, rfl⟩
  · unfold exec execDecFullOffset at hx
    obtain ⟨-, -, -, h⟩ := State.readThen_next.1 hx
    exact ⟨_, h.symm⟩
  · unfold exec execDecShortOffset at hx
    obtain ⟨-, -, -, h⟩ := State.readThen_next.1 hx
    exact ⟨_, h.symm⟩

/-- Only the offset 0x01 has no data to copy (R75, R164). -/
theorem runPhase_remOfOffset (c : Byte) :
    runPhase (remOfOffset c) = if c = 0x01#8 then .decAwaitOffset else .decCopyRun := by
  simp only [runPhase, remOfOffset_eq_zero]

theorem State.loadRun_eq (s : State) (c : Byte) :
    s.loadRun c =
      { s with prev := c, rem := c - 1, phase := if c = 0x01#8 then .decAwaitOffset else .decCopyRun } := by
  unfold State.loadRun
  rw [runPhase_remOfOffset]
  rfl

end Offset

/-- Settles O19: with `PREV` in 1 to 254 the restored zero fits or fails, else the run is loaded at once. -/
theorem decOffsetStep : Obligations.DecOffsetStep := by
  intro s c hp hrd _
  have hx : exec (if c = maxOffset then .decFullOffset else .decShortOffset c) s = .next (s.advanceRd.takeOffset c) :=
    exec_decodeOffset hp hrd c
  rw [hx]
  refine ⟨fun hzero hmax hfull => ?_, fun hzero hmax hroom => ?_, fun hplain => ?_⟩
  · rw [State.takeOffset_restore (s := s.advanceRd) hzero hmax, State.pushThen_full (s := s.advanceRd) _ _ hfull]
    exact ⟨_, rfl, State.fail_completed _ _ _⟩
  · rw [State.takeOffset_restore (s := s.advanceRd) hzero hmax, State.pushThen_room (s := s.advanceRd) _ _ hroom,
      State.loadRun_eq]
    rfl
  · rw [State.takeOffset_plain (s := s.advanceRd) hplain, State.loadRun_eq]
    rfl

/-- Settles O22: the step stores at most the restored zero at `WR`, and a failure draws the bytes below `DST_CAP`. -/
theorem decOffsetFrame : Obligations.DecOffsetFrame := by
  intro i hi s t hx
  obtain ⟨c, rfl⟩ := exec_offset_next hi hx
  rcases s.advanceRd.takeOffset_cases c with heq | ⟨hzero, hmax, heq⟩ | heq <;> rw [heq]
  · simp [State.SameOperands, State.SameResults, State.DstSameOutside]
  · have hout : s.DstSameOutside (fun a => s.prev ≠ 0x00#8 ∧ s.prev ≠ maxOffset ∧ a = s.wr)
        ((s.advanceRd.placeByte marker).loadRun c) :=
      fun a ha => Memory.read_write_other _ _ fun hwr => ha ⟨hzero, hmax, hwr⟩
    simpa [State.SameOperands, State.SameResults] using hout
  · have hout := s.dstSameOutside_advanceRd_fail .writeOverflow 0
    simp [State.SameOperands, hout]

/-! DEC.DATA (R165). -/

section Data

variable {s t : State} {b : Byte}

theorem exec_decData_next : exec (.decData b) s = .next t ↔
    s.phase = .decCopyRun ∧ s.rd < s.srcLen ∧ (s.advanceRd.pushThen b fun s => s.countDown) = t := by
  unfold exec execDecData
  rw [State.readThen_next]
  simp

theorem exec_decData_noRoom (hp : s.phase = .decCopyRun) (hrd : s.rd < s.srcLen) (hfull : s.dstCap ≤ s.wr) :
    exec (.decData b) s = .next (s.advanceRd.fail .writeOverflow 0) :=
  exec_decData_next.2 ⟨hp, hrd, State.pushThen_full (s := s.advanceRd) b _ hfull⟩

theorem exec_decData_room (hp : s.phase = .decCopyRun) (hrd : s.rd < s.srcLen) (hroom : s.wr < s.dstCap) :
    exec (.decData b) s = .next (s.advanceRd.placeByte b).countDown :=
  exec_decData_next.2 ⟨hp, hrd, State.pushThen_room (s := s.advanceRd) b _ hroom⟩

/-- The last byte of a run goes back to DEC_AWAIT_OFFSET (R165). -/
theorem State.countDown_eq (s : State) :
    s.countDown = { s with rem := s.rem - 1, phase := if s.rem = 0x01#8 then .decAwaitOffset else .decCopyRun } := by
  unfold State.countDown
  rw [show s.rem - 0x01#8 = remOfOffset s.rem from rfl, runPhase_remOfOffset]
  rfl

end Data

/-- Settles O20: the end of the source, a zero in the run, a data byte that does not fit and one that does. -/
theorem decCopyRunStep : Obligations.DecCopyRunStep := by
  intro s hp
  refine ⟨fun hinv => ?_, fun hr hrd => ?_, fun hrd => ?_, fun b hrd _ => ⟨fun hfull => ?_, fun hroom => ?_⟩⟩
  · obtain ⟨-, hrem, -⟩ := hinv (.inr hp)
    exact (hrem hp).1
  · exact ⟨_, step_decSourceEnd (.inr hp) hr hrd, State.fail_completed _ _ _⟩
  · exact ⟨_, exec_decZeroInRun_next.2 ⟨hp, hrd, rfl⟩, State.fail_completed _ _ _⟩
  · exact ⟨_, exec_decData_noRoom hp hrd hfull, State.fail_completed _ _ _⟩
  · rw [exec_decData_room hp hrd hroom, State.countDown_eq]
    rfl

/-- Settles O23: the step stores at `WR`, and a failure draws the bytes below `DST_CAP`. -/
theorem decDataFrame : Obligations.DecDataFrame := by
  intro b s t hx
  obtain ⟨-, -, rfl⟩ := exec_decData_next.1 hx
  rcases s.advanceRd.pushThen_cases b (fun s => s.countDown) with ⟨-, heq⟩ | ⟨-, heq⟩ <;> rw [heq]
  · have hout : s.DstSameOutside (fun a => a = s.wr) (s.advanceRd.placeByte b).countDown :=
      fun a ha => Memory.read_write_other _ _ ha
    simp [State.SameOperands, State.SameResults, hout]
  · have hout := s.dstSameOutside_advanceRd_fail .writeOverflow 0
    simp [State.SameOperands, hout]

/-- Settles O21: the step of each byte with no room to write; a full `DST` stops only a byte that asks to write. -/
theorem decoderCheckOrder : Obligations.DecoderCheckOrder := by
  intro s hr hfull
  refine ⟨fun hp hrd => ?_, fun hp hrd => ⟨fun hb => ?_, fun b hb hne => ?_⟩,
    fun hp hrd => ⟨fun hb hprev => ?_, fun hb hprev => ?_, fun c hb hne hzero hmax => ?_⟩⟩
  · exact ⟨_, step_decSourceEnd hp hr hrd, State.fail_completed _ _ _⟩
  · exact ⟨_, step_decZeroInRun hp hr hrd hb, State.fail_completed _ _ _⟩
  · rw [step_decData hp hr hrd hb hne, State.pushThen_full (s := s.pollHost.advanceRd) _ _ hfull]
    exact ⟨_, rfl, State.fail_completed _ _ _⟩
  · exact ⟨_, step_decZeroFirst hp hr hrd hb hprev, State.fail_completed _ _ _⟩
  · exact ⟨_, step_decTerminator hp hr hrd hb hprev, State.complete_completed _ _ _ _ _⟩
  · rw [step_decOffset hp hr hrd hb hne, State.takeOffset_restore (s := s.pollHost.advanceRd) hzero hmax,
      State.pushThen_full (s := s.pollHost.advanceRd) _ _ hfull]
    exact ⟨_, rfl, State.fail_completed _ _ _⟩

/-! The whole command. -/

/-- Settles O44: the simulation of R180 ends in what the decoding function says. -/
theorem decodeMeetsItsFunction : Obligations.DecodeMeetsItsFunction :=
  fun _ _ h => issueAndRun_decodeCmd h

end Sys2Proof.Machine

/-! SUPPORT. What the capacity and the rest of the source can change of the decoding function (spec/42_decoder.md R169 to R172, R175,
R176). -/

namespace Sys2Proof.Machine

open Sys2Proof

section Outcome

variable {big cap : Nat} {src x : List Byte} {need : Nat} {prev : Byte} {rd : Nat} {out : List Byte}

/-- WRITE_OVERFLOW reports no count, and needs a capacity that the bytes written and those still to read could exceed (R171). -/
theorem cobsDecodeFrom_writeOverflow (hst : (cobsDecodeFrom cap x need prev rd out).status = .writeOverflow) :
    (cobsDecodeFrom cap x need prev rd out).consumed = 0 ∧ (cobsDecodeFrom cap x need prev rd out).produced = 0 ∧
      cap < out.length + x.length := by
  fun_induction cobsDecodeFrom cap x need prev rd out with
  | case1 | case2 | case3 | case7 => cases hst
  | case4 _ _ _ _ _ _ _ _ ih | case6 _ _ _ _ _ _ _ ih | case8 _ _ _ _ _ _ _ _ ih =>
    obtain ⟨hc, hp, hlt⟩ := ih hst
    refine ⟨hc, hp, ?_⟩
    simp at hlt ⊢
    omega
  | case5 | case9 =>
    refine ⟨rfl, rfl, ?_⟩
    simp
    omega

/-- No byte is written past the capacity (R177). -/
theorem cobsDecodeFrom_written_le_cap (hout : out.length ≤ cap) :
    (cobsDecodeFrom cap x need prev rd out).written.length ≤ cap := by
  fun_induction cobsDecodeFrom cap x need prev rd out with
  | case1 | case2 | case3 | case5 | case7 | case9 => exact hout
  | case4 _ _ _ _ _ _ _ hroom ih | case8 _ _ _ _ _ _ _ hroom ih => exact ih (by simpa using hroom)
  | case6 _ _ _ _ _ _ _ ih => exact ih hout

/-- `|SRC|` bytes of room are always enough. -/
theorem cobsDecode_status_ne_writeOverflow (hroom : src.length ≤ cap) : (cobsDecode src cap).status ≠ .writeOverflow := by
  intro hst
  obtain ⟨-, -, hlt⟩ := cobsDecodeFrom_writeOverflow hst
  simp at hlt
  omega

/-- More room changes no outcome but WRITE_OVERFLOW. -/
theorem cobsDecode_eq_of_le (hst : (cobsDecode src cap).status ≠ .writeOverflow) (hle : cap ≤ big) :
    cobsDecode src big = cobsDecode src cap :=
  cobsDecodeFrom_eq_of_written_le hst (Nat.le_trans (cobsDecodeFrom_written_le_cap (Nat.zero_le _)) hle)

/-- A capacity that the bytes written with more room exceed is WRITE_OVERFLOW: any other outcome would be that of the room. -/
theorem cobsDecode_status_of_lt_written (hlt : cap < (cobsDecode src big).written.length) :
    (cobsDecode src cap).status = .writeOverflow := by
  by_contra hst
  have hbig : (cobsDecode src big).written.length ≤ big := cobsDecodeFrom_written_le_cap (Nat.zero_le _)
  have hcap : (cobsDecode src cap).written.length ≤ cap := cobsDecodeFrom_written_le_cap (Nat.zero_le _)
  rw [cobsDecode_eq_of_le hst (Nat.le_of_lt (Nat.lt_of_lt_of_le hlt hbig))] at hlt
  exact Nat.not_lt.2 hcap hlt

/-- The decoding function stops at a zero of `x`, after `rd` bytes and those up to it, and reads nothing after it. -/
def DecodeStopsAtZero (cap : Nat) (x : List Byte) (need : Nat) (prev : Byte) (rd : Nat) (out : List Byte) : Prop :=
  ∃ p q, x = p ++ marker :: q ∧ (cobsDecodeFrom cap x need prev rd out).consumed = rd + (p.length + 1) ∧
    ∀ rest, cobsDecodeFrom cap (p ++ marker :: rest) need prev rd out = cobsDecodeFrom cap x need prev rd out

theorem DecodeStopsAtZero.here (t : List Byte)
    (hcons : (cobsDecodeFrom cap (marker :: t) need prev rd out).consumed = rd + 1)
    (hrest : ∀ y, cobsDecodeFrom cap (marker :: y) need prev rd out = cobsDecodeFrom cap (marker :: t) need prev rd out) :
    DecodeStopsAtZero cap (marker :: t) need prev rd out :=
  ⟨[], t, rfl, hcons, hrest⟩

theorem DecodeStopsAtZero.cons {c prev' : Byte} {t out' : List Byte} {need' : Nat}
    (h : DecodeStopsAtZero cap t need' prev' (rd + 1) out')
    (hstep : ∀ y, cobsDecodeFrom cap (c :: y) need prev rd out = cobsDecodeFrom cap y need' prev' (rd + 1) out') :
    DecodeStopsAtZero cap (c :: t) need prev rd out := by
  obtain ⟨p, q, rfl, hcons, hrest⟩ := h
  refine ⟨c :: p, q, rfl, ?_, fun rest => ?_⟩
  · rw [hstep, hcons, List.length_cons]
    omega
  · rw [List.cons_append, hstep, hrest, hstep]

/-- OK and UNEXPECTED_ZERO are such stops (R175, R176). -/
theorem cobsDecodeFrom_stopsAtZero
    (hst : (cobsDecodeFrom cap x need prev rd out).status = .ok ∨
      (cobsDecodeFrom cap x need prev rd out).status = .unexpectedZero) :
    DecodeStopsAtZero cap x need prev rd out := by
  fun_induction cobsDecodeFrom cap x need prev rd out with
  | case1 | case5 | case9 => simp at hst
  | case2 t | case7 t => exact .here t (by simp [cobsDecodeFrom]) fun _ => by simp [cobsDecodeFrom]
  | case3 t _ _ _ hprev => exact .here t (by simp [cobsDecodeFrom, hprev]) fun _ => by simp [cobsDecodeFrom, hprev]
  | case4 _ _ _ _ _ hc hzero hroom ih => exact (ih hst).cons fun _ => by simp [cobsDecodeFrom, hc, hzero, hroom]
  | case6 _ _ _ _ _ hc hzero ih => exact (ih hst).cons fun _ => by simp only [cobsDecodeFrom, if_neg hc, if_neg hzero]
  | case8 _ _ _ _ _ _ hb hroom ih => exact (ih hst).cons fun _ => by simp [cobsDecodeFrom, hb, hroom]

/-- The same of the whole source. -/
theorem cobsDecode_stopsAtZero (hst : (cobsDecode src cap).status = .ok ∨ (cobsDecode src cap).status = .unexpectedZero) :
    ∃ p q, src = p ++ marker :: q ∧ (cobsDecode src cap).consumed = p.length + 1 ∧
      ∀ rest, cobsDecode (p ++ marker :: rest) cap = cobsDecode src cap := by
  obtain ⟨p, q, hsrc, hcons, hrest⟩ := cobsDecodeFrom_stopsAtZero hst
  exact ⟨p, q, hsrc, hcons.trans (Nat.zero_add _), hrest⟩

end Outcome

/-- Settles O54: `|SRC|` bytes of room exclude WRITE_OVERFLOW, and no other outcome depends on the capacity. -/
theorem capacityDecidesTheOutcome : Obligations.CapacityDecidesTheOutcome := by
  refine fun src cap => ⟨fun hfit => ?_, fun hlt => ?_⟩
  · exact cobsDecodeFrom_eq_of_written_le (cobsDecode_status_ne_writeOverflow (Nat.le_refl _)) hfit
  · have hst := cobsDecode_status_of_lt_written hlt
    obtain ⟨hc, hp, -⟩ := cobsDecodeFrom_writeOverflow hst
    exact ⟨hst, hc, hp⟩

/-- Settles O57: both outcomes come at a zero, the last byte read. -/
theorem consumedMarksTheBytesThatMatter : Obligations.ConsumedMarksTheBytesThatMatter := by
  refine fun src cap => ⟨fun hst => ?_, fun hfirst => ?_, fun hst rest => ?_⟩
  · obtain ⟨p, q, hsrc, hcons, -⟩ := cobsDecode_stopsAtZero (.inr hst)
    rw [hcons, hsrc]
    simp
  · obtain ⟨t, rfl⟩ : ∃ t, src = marker :: t := by
      cases src with
      | nil => cases hfirst
      | cons c t => exact ⟨t, by simpa using hfirst⟩
    rfl
  · obtain ⟨p, q, hsrc, hcons, hrest⟩ := cobsDecode_stopsAtZero hst
    have htake : src.take (cobsDecode src cap).consumed = p ++ [marker] := by
      rw [hcons, hsrc, List.take_length_add_append]
      rfl
    rw [htake, List.append_assoc]
    exact hrest rest

end Sys2Proof.Machine

/-! SUPPORT. The sources that DECODE accepts, and those it runs out of (spec/42_decoder.md R168, R169, R173, R174, R178): packets of the
grammar, and their proper beginnings. -/

namespace Sys2Proof.Machine

open Sys2Proof

/-- `d` and then the packet of `rs` can be what is left of a packet, `need` data bytes of its current run being still to copy: no
run need follow the current one. -/
structure IsPacketRest (need : Nat) (d : List Byte) (rs : List (List Byte)) : Prop where
  length : d.length = need
  data : ∀ b ∈ d, b ≠ marker
  runs : ∀ r ∈ rs, IsRunData r

/-- What the decoder writes for the runs `rs` that come after offset `prev`: nothing for the terminator alone (R163, R173). -/
def decodedAfter (prev : Byte) (rs : List (List Byte)) : List Byte := if rs = [] then [] else restoredAfter prev ++ decodedOf rs

@[simp] theorem decodedAfter_nil (prev : Byte) : decodedAfter prev [] = [] := rfl

@[simp] theorem decodedAfter_cons (prev : Byte) (d : List Byte) (rs : List (List Byte)) :
    decodedAfter prev (d :: rs) = restoredAfter prev ++ decodedOf (d :: rs) := rfl

/-- R72 and R173 say the same of the zero after a run. -/
theorem decodedOf_cons_decodedAfter {d : List Byte} (hd : d.length ≤ maxRunData) (rs : List (List Byte)) :
    decodedOf (d :: rs) = d ++ decodedAfter (BitVec.ofNat 8 (d.length + 1)) rs := by
  cases rs with
  | nil => simp [decodedOf]
  | cons d' rs => rw [decodedAfter_cons, restoredAfter_runOffset hd, decodedOf_cons d (by simp), List.append_assoc]

section PacketRest

variable {need : Nat} {d : List Byte} {rs : List (List Byte)}

theorem isPacketRest_zero_iff : IsPacketRest 0 d rs ↔ d = [] ∧ ∀ r ∈ rs, IsRunData r := by
  constructor
  · rintro ⟨hlen, -, hruns⟩
    exact ⟨List.eq_nil_of_length_eq_zero hlen, hruns⟩
  · rintro ⟨rfl, hruns⟩
    exact ⟨rfl, by simp, hruns⟩

theorem IsPacketRest.cons_data (h : IsPacketRest need d rs) {b : Byte} (hb : b ≠ marker) :
    IsPacketRest (need + 1) (b :: d) rs :=
  ⟨by rw [List.length_cons, h.length], List.forall_mem_cons.2 ⟨hb, h.data⟩, h.runs⟩

variable {c : Byte}

/-- A nonzero offset byte says how long its run is (R70). -/
theorem IsPacketRest.runOffset (h : IsPacketRest (c.toNat - 1) d rs) (hc : c ≠ marker) : BitVec.ofNat 8 (d.length + 1) = c := by
  have hpos : c.toNat ≠ 0 := fun hz => hc (BitVec.eq_of_toNat_eq hz)
  rw [h.length, Nat.sub_add_cancel (Nat.one_le_iff_ne_zero.2 hpos)]
  simp

theorem IsPacketRest.isRunData (h : IsPacketRest (c.toNat - 1) d rs) : IsRunData d :=
  ⟨by rw [h.length]; exact Nat.sub_le_of_le_add (Nat.le_of_lt_succ c.isLt), h.data⟩

theorem IsPacketRest.cons_offset (h : IsPacketRest (c.toNat - 1) d rs) : IsPacketRest 0 [] (d :: rs) :=
  isPacketRest_zero_iff.2 ⟨rfl, List.forall_mem_cons.2 ⟨h.isRunData, h.runs⟩⟩

/-- An offset byte in front of its run's data and the packet of the other runs makes the packet of all of them. -/
theorem IsPacketRest.packetOf_cons (h : IsPacketRest (c.toNat - 1) d rs) (hc : c ≠ marker) :
    packetOf (d :: rs) = c :: (d ++ packetOf rs) := by
  rw [Machine.packetOf_cons, runBytes, h.runOffset hc, List.cons_append]

theorem IsPacketRest.decodedAfter_cons (h : IsPacketRest (c.toNat - 1) d rs) (hc : c ≠ marker) (prev : Byte) :
    decodedAfter prev (d :: rs) = restoredAfter prev ++ d ++ decodedAfter c rs := by
  rw [Machine.decodedAfter_cons, decodedOf_cons_decodedAfter h.isRunData.1, h.runOffset hc, List.append_assoc]

end PacketRest

section Accepts

variable {cap : Nat} {src x : List Byte} {need : Nat} {prev : Byte} {rd : Nat} {out : List Byte}

/-- The decoding function reads the rest of a packet at the start of `x`, and writes what that rest stands for. -/
def DecodesPacketRest (cap : Nat) (x : List Byte) (need : Nat) (prev : Byte) (rd : Nat) (out : List Byte) : Prop :=
  ∃ d rs rest, IsPacketRest need d rs ∧ x = d ++ packetOf rs ++ rest ∧
    cobsDecodeFrom cap x need prev rd out =
      ⟨.ok, rd + (d ++ packetOf rs).length, (out ++ d ++ decodedAfter prev rs).length, out ++ d ++ decodedAfter prev rs⟩

/-- An offset byte that the decoder takes starts one more run (R164). -/
theorem DecodesPacketRest.cons_offset {c : Byte} {t : List Byte} (hc : c ≠ marker)
    (h : DecodesPacketRest cap t (c.toNat - 1) c (rd + 1) (out ++ restoredAfter prev))
    (hstep : cobsDecodeFrom cap (c :: t) 0 prev rd out =
      cobsDecodeFrom cap t (c.toNat - 1) c (rd + 1) (out ++ restoredAfter prev)) :
    DecodesPacketRest cap (c :: t) 0 prev rd out := by
  obtain ⟨d, rs, rest, hrest, rfl, heq⟩ := h
  refine ⟨[], d :: rs, rest, hrest.cons_offset, by rw [hrest.packetOf_cons hc]; rfl, ?_⟩
  rw [hstep, heq, hrest.packetOf_cons hc, hrest.decodedAfter_cons hc]
  simp [Nat.add_assoc, Nat.add_comm 1]

/-- A data byte that the decoder copies is the next of its run (R165). -/
theorem DecodesPacketRest.cons_data {b : Byte} {t : List Byte} (hb : b ≠ marker)
    (h : DecodesPacketRest cap t need prev (rd + 1) (out ++ [b]))
    (hstep : cobsDecodeFrom cap (b :: t) (need + 1) prev rd out = cobsDecodeFrom cap t need prev (rd + 1) (out ++ [b])) :
    DecodesPacketRest cap (b :: t) (need + 1) prev rd out := by
  obtain ⟨d, rs, rest, hrest, rfl, heq⟩ := h
  refine ⟨b :: d, rs, rest, hrest.cons_data hb, rfl, ?_⟩
  rw [hstep, heq]
  simp [Nat.add_assoc, Nat.add_comm 1]

/-- Every OK outcome comes from the rest of a packet (R168). -/
theorem cobsDecodeFrom_ok (hok : (cobsDecodeFrom cap x need prev rd out).status = .ok) :
    DecodesPacketRest cap x need prev rd out := by
  fun_induction cobsDecodeFrom cap x need prev rd out with
  | case1 | case2 | case5 | case7 | case9 => cases hok
  | case3 t prev rd out hprev =>
    exact ⟨[], [], t, isPacketRest_zero_iff.2 ⟨rfl, by simp⟩, rfl, by simp [cobsDecodeFrom, hprev]⟩
  | case4 c t prev rd out hc hzero hroom ih =>
    have hrestored : restoredAfter prev = [marker] := if_pos hzero
    rw [← hrestored] at ih hok
    exact (ih hok).cons_offset hc (by rw [cobsDecodeFrom, if_neg hc, if_pos hzero, if_pos hroom, hrestored])
  | case6 c t prev rd out hc hplain ih =>
    have hrestored : out ++ restoredAfter prev = out := by rw [restoredAfter, if_neg hplain, List.append_nil]
    rw [← hrestored] at ih hok
    exact (ih hok).cons_offset hc (by rw [cobsDecodeFrom, if_neg hc, if_neg hplain, hrestored])
  | case8 b t need prev rd out hb hroom ih =>
    exact (ih hok).cons_data hb (by rw [cobsDecodeFrom, if_neg hb, if_pos hroom])

/-- Every OK outcome comes from a packet at the start of the source, and is what that packet stands for (R168). -/
theorem cobsDecode_ok (hok : (cobsDecode src cap).status = .ok) :
    ∃ rs rest, IsRunList rs ∧ src = packetOf rs ++ rest ∧
      cobsDecode src cap = ⟨.ok, (packetOf rs).length, (decodedOf rs).length, decodedOf rs⟩ := by
  obtain ⟨d, rs, rest, hrest, rfl, heq⟩ := cobsDecodeFrom_ok hok
  obtain ⟨rfl, hruns⟩ := isPacketRest_zero_iff.1 hrest
  cases rs with
  | nil => cases hok
  | cons d rs => exact ⟨d :: rs, rest, ⟨by simp, hruns⟩, rfl, by simpa [cobsDecode] using heq⟩

/-- `x` is a proper beginning of the rest of a packet. -/
def BeginsPacketRest (need : Nat) (x : List Byte) : Prop :=
  ∃ ext d rs, ext ≠ [] ∧ rs ≠ [] ∧ IsPacketRest need d rs ∧ x ++ ext = d ++ packetOf rs

/-- Data bytes for the current run, an empty run and the terminator complete a packet that breaks off. -/
theorem beginsPacketRest_nil (need : Nat) : BeginsPacketRest need [] := by
  have hdata : ∀ b ∈ List.replicate need 0x01#8, b ≠ marker := fun b hb => by
    rw [List.eq_of_mem_replicate hb]
    decide
  exact ⟨_, List.replicate need 0x01#8, [[]], by simp [packetOf], by simp, ⟨by simp, hdata, by simp [IsRunData]⟩, rfl⟩

theorem BeginsPacketRest.cons_offset {c : Byte} {t : List Byte} (hc : c ≠ marker) (h : BeginsPacketRest (c.toNat - 1) t) :
    BeginsPacketRest 0 (c :: t) := by
  obtain ⟨ext, d, rs, hext, -, hrest, heq⟩ := h
  refine ⟨ext, [], d :: rs, hext, by simp, hrest.cons_offset, ?_⟩
  rw [hrest.packetOf_cons hc, List.cons_append, heq, List.nil_append]

theorem BeginsPacketRest.cons_data {b : Byte} {t : List Byte} (hb : b ≠ marker) (h : BeginsPacketRest need t) :
    BeginsPacketRest (need + 1) (b :: t) := by
  obtain ⟨ext, d, rs, hext, hne, hrest, heq⟩ := h
  exact ⟨ext, b :: d, rs, hext, hne, hrest.cons_data hb, by rw [List.cons_append, heq, List.cons_append]⟩

/-- A source that runs out is the beginning of a packet (R169). -/
theorem cobsDecodeFrom_readOverflow (hst : (cobsDecodeFrom cap x need prev rd out).status = .readOverflow) :
    BeginsPacketRest need x := by
  fun_induction cobsDecodeFrom cap x need prev rd out with
  | case1 need => exact beginsPacketRest_nil need
  | case2 | case3 | case5 | case7 | case9 => cases hst
  | case4 _ _ _ _ _ hc _ _ ih => exact (ih hst).cons_offset hc
  | case6 _ _ _ _ _ hc _ ih => exact (ih hst).cons_offset hc
  | case8 _ _ _ _ _ _ hb _ ih => exact (ih hst).cons_data hb

/-- A proper beginning of a packet ends neither in OK nor in UNEXPECTED_ZERO: what follows would change neither (R175), and the
whole packet is consumed when it is there (R168). -/
theorem cobsDecode_status_of_beginning {rs : List (List Byte)} {ext : List Byte} (hrs : IsRunList rs) (hext : ext ≠ [])
    (heq : src ++ ext = packetOf rs) :
    ¬ ((cobsDecode src cap).status = .ok ∨ (cobsDecode src cap).status = .unexpectedZero) := by
  intro hst
  obtain ⟨p, q, hsrc, hcons, hrest⟩ := cobsDecode_stopsAtZero hst
  have hwhole : cobsDecode (packetOf rs) cap = cobsDecode src cap := by
    rw [← heq, ← hrest (q ++ ext), hsrc, List.append_assoc, List.cons_append]
  have hroom : cobsDecode (packetOf rs) (max cap (decodedOf rs).length) = cobsDecode src cap := by
    rw [← hwhole]
    refine cobsDecode_eq_of_le ?_ (Nat.le_max_left _ _)
    rw [hwhole]
    rcases hst with hst | hst <;> simp [hst]
  have hpacket := cobsDecode_packetOf hrs [] (Nat.le_max_right cap _)
  rw [List.append_nil, hroom] at hpacket
  have hlen : (packetOf rs).length = p.length + 1 := by rw [← hcons, hpacket]
  have hpos := List.length_pos_iff.2 hext
  rw [← heq, hsrc, List.length_append, List.length_append, List.length_cons] at hlen
  omega

end Accepts

/-- Settles O51: with less room the bytes of `x`, all written where they fit, do not fit. -/
theorem decodeOfEncodeIsTheInput : Obligations.DecodeOfEncodeIsTheInput := by
  refine fun x cap => ⟨cobsDecode_cobsEncodeBytes, fun hlt => ?_⟩
  refine cobsDecode_status_of_lt_written (big := x.length) ?_
  rwa [cobsDecode_cobsEncodeBytes (Nat.le_refl _)]

/-- Settles O53: soundness by the induction of R167, completeness by that on the runs. -/
theorem decodeAcceptsExactlyPackets : Obligations.DecodeAcceptsExactlyPackets := by
  refine ⟨fun rs rest cap hrs hfit => cobsDecode_packetOf hrs rest hfit, fun src cap hok => ?_⟩
  have hcap : (cobsDecode src cap).written.length ≤ cap := cobsDecodeFrom_written_le_cap (Nat.zero_le _)
  obtain ⟨rs, rest, hrs, hsrc, heq⟩ := cobsDecode_ok hok
  rw [heq] at hcap ⊢
  exact ⟨rs, hrs, by rw [hsrc]; simp, rfl, rfl, rfl, hcap⟩

/-- Settles O55: a source that runs out can be completed, and one that can be completed has no other outcome. -/
theorem readOverflowIsAProperBeginning : Obligations.ReadOverflowIsAProperBeginning := by
  refine fun src cap hcap => ⟨fun hst => ?_, ?_⟩
  · obtain ⟨ext, d, rs, hext, hne, hrest, heq⟩ := cobsDecodeFrom_readOverflow hst
    obtain ⟨rfl, hruns⟩ := isPacketRest_zero_iff.1 hrest
    exact ⟨rs, ext, ⟨hne, hruns⟩, hext, heq⟩
  · rintro ⟨rs, ext, hrs, hext, heq⟩
    have hroom := cobsDecode_status_ne_writeOverflow hcap
    obtain ⟨hok, hzero⟩ := not_or.1 (cobsDecode_status_of_beginning (cap := cap) hrs hext heq)
    cases hst : (cobsDecode src cap).status with
    | readOverflow => rfl
    | ok => exact absurd hst hok
    | writeOverflow => exact absurd hst hroom
    | unexpectedZero => exact absurd hst hzero

end Sys2Proof.Machine

/-! SUPPORT. How an engine step can end (spec/60_exceptions.md R210 to R213, R227): it runs on and reports nothing, or it completes
with a row of R212's table. -/

namespace Sys2Proof.Machine

open Sys2Proof

/-- What only a completion writes (R211), and what the free draws of a failure are fixed by: their bound and the number of the
first (R213). -/
structure Ledger where
  status : Status
  produced : Nat
  consumed : Nat
  result : Nat
  written : Written
  dstCap : Nat
  freeCount : Nat

/-- The ledger of a state. -/
def State.ledger (s : State) : Ledger :=
  ⟨s.status, s.produced, s.consumed, s.result, s.written, s.dstCap, s.freeCount⟩

/-- The same ledger, in the terms of the statements. -/
theorem State.ledger_eq_iff {s t : State} :
    t.ledger = s.ledger ↔ s.SameResults t ∧ t.written = s.written ∧ t.dstCap = s.dstCap ∧ t.freeCount = s.freeCount := by
  simp only [State.ledger, Ledger.mk.injEq, State.SameResults, and_assoc]

/-- R212's rows for a failure of the command that runs in `s`: WRITE_OVERFLOW of either command, READ_OVERFLOW and UNEXPECTED_ZERO of
DECODE only, the last with the bytes read, `n`, as `CONSUMED`. -/
def State.FailureRow (s : State) (st : Status) (c n : Nat) : Prop :=
  (st = .writeOverflow ∧ c = 0) ∨
    ((s.phase = .decAwaitOffset ∨ s.phase = .decCopyRun) ∧ ((st = .readOverflow ∧ c = 0) ∨ (st = .unexpectedZero ∧ c = n)))

/-- How a step of the engine ends (R210): it runs on, or it is the one completion of its command. A completion or a failure is that
of a state `u` with the ledger still as it was. -/
inductive State.EngineOutcome (s : State) : State → Prop
  | runs {t : State} (hledger : t.ledger = s.ledger) (hbusy : t.phase ≠ .idle) : s.EngineOutcome t
  | encoded {u : State} (hp : s.phase = .encFinish) : s.EngineOutcome (u.complete .ok 0 u.wr 0)
  | decoded {u : State} (hp : s.phase = .decAwaitOffset) : s.EngineOutcome (u.complete .ok u.rd u.wr 0)
  | fails {u : State} {st : Status} {c : Nat} (hledger : u.ledger = s.ledger) (hrow : s.FailureRow st c u.rd) :
      s.EngineOutcome (u.fail st c)

section EngineOutcome

variable {s u : State}

theorem State.EngineOutcome.overflows (hu : u.ledger = s.ledger) : s.EngineOutcome (u.fail .writeOverflow 0) :=
  .fails hu (.inl ⟨rfl, rfl⟩)

/-- A bounded write ends as what follows a write that fits does, or with WRITE_OVERFLOW. -/
theorem State.EngineOutcome.pushThen (hu : u.ledger = s.ledger) {v : Byte} {k : State → State}
    (hk : s.EngineOutcome (k (u.placeByte v))) : s.EngineOutcome (u.pushThen v k) := by
  rcases u.pushThen_cases v k with ⟨-, heq⟩ | ⟨-, heq⟩ <;> rw [heq]
  · exact hk
  · exact .overflows hu

theorem State.EngineOutcome.reserveSlot (hu : u.ledger = s.ledger) (hb : u.phase ≠ .idle) : s.EngineOutcome u.reserveSlot := by
  rcases u.reserveSlot_cases with ⟨-, heq⟩ | ⟨-, heq⟩ <;> rw [heq]
  · exact .runs hu hb
  · exact .overflows hu

theorem State.EngineOutcome.closeFullRun (hu : u.ledger = s.ledger) (hb : u.phase ≠ .idle) : s.EngineOutcome u.closeFullRun := by
  unfold State.closeFullRun
  split_ifs
  · exact .reserveSlot (u := u.finalizeSlot maxOffset) hu hb
  · exact .runs hu hb

theorem State.EngineOutcome.takeOffset (hu : u.ledger = s.ledger) (c : Byte) : s.EngineOutcome (u.takeOffset c) := by
  rcases u.takeOffset_cases c with heq | ⟨-, -, heq⟩ | heq <;> rw [heq]
  · exact .runs hu runPhase_ne_idle
  · exact .runs hu runPhase_ne_idle
  · exact .overflows hu

theorem State.EngineOutcome.finishEncode (hp : s.phase = .encFinish) : s.EngineOutcome s.finishEncode := by
  have hpending : s.finalizePending.ledger = s.ledger := by rw [State.finalizePending_eq]; rfl
  rw [State.finishEncode_eq]
  exact .pushThen hpending (.encoded hp)

/-- A busy engine's step has one of these outcomes, whatever it reads. -/
theorem engineStep_outcome {t : State} (hb : s.phase ≠ .idle) (hstep : engineStep s = .next t) : s.EngineOutcome t := by
  have hread : s.advanceRd.ledger = s.ledger := rfl
  rcases engineStep_busy_cases hb hstep with ⟨hp, rfl⟩ | ⟨-, -, rfl⟩ | ⟨hp, -, rfl⟩ | ⟨-, b, -, hclass⟩
  · exact .finishEncode hp
  · exact .runs rfl (by simp)
  · exact .fails rfl (.inr ⟨hp, .inl ⟨rfl, rfl⟩⟩)
  · rcases hclass with ⟨-, -, rfl⟩ | ⟨-, -, rfl⟩ | ⟨hp, -, -, rfl⟩ | ⟨hp, -, -, rfl⟩ | ⟨-, -, rfl⟩ | ⟨hp, -, rfl⟩ | ⟨-, -, rfl⟩
    · exact .reserveSlot (u := s.advanceRd.finalizeSlot s.run) rfl hb
    · refine .pushThen hread ?_
      split_ifs
      · exact .closeFullRun (u := (s.advanceRd.placeByte b).countRun) rfl hb
      · exact .runs rfl hb
    · exact .fails hread (.inr ⟨.inl hp, .inr ⟨rfl, rfl⟩⟩)
    · exact .decoded (u := s.advanceRd) hp
    · exact .takeOffset hread b
    · exact .fails hread (.inr ⟨.inr hp, .inr ⟨rfl, rfl⟩⟩)
    · refine .pushThen hread ?_
      exact .runs rfl runPhase_ne_idle

end EngineOutcome

/-- Settles O26: a step that runs on keeps the ledger, and each completion is a row of R212's table. -/
theorem engineStepCompletesAtMostOnce : Obligations.EngineStepCompletesAtMostOnce := by
  intro s t hb hr hstep
  rw [step_busy hr hb] at hstep
  cases engineStep_outcome (s := s.pollHost) hb hstep with
  | runs hledger hbusy =>
    obtain ⟨hresults, hwritten, -⟩ := State.ledger_eq_iff.1 hledger
    exact .inl ⟨hbusy, hresults, hwritten⟩
  | encoded hp => simp [show s.phase = .encFinish from hp]
  | decoded hp => simp [show s.phase = .decAwaitOffset from hp]
  | fails _ hrow =>
    rcases hrow with ⟨rfl, rfl⟩ | ⟨hp, hst⟩
    · simp
    · have hdec : s.phase ≠ .encScan ∧ s.phase ≠ .encFinish := by
        rcases hp with hp | hp <;> rw [State.pollHost_phase] at hp <;> simp [hp]
      rcases hst with ⟨rfl, rfl⟩ | ⟨rfl, rfl⟩ <;> simp [hdec]

/-- A step of the engine that completes with a status other than OK draws every byte below `DST_CAP` (R213). -/
theorem engineStep_draws_below {s t : State} (hb : s.phase ≠ .idle) (hstep : engineStep s = .next t) (ht : t.phase = .idle)
    (hst : t.status ≠ .ok) {a : Nat} (ha : a < s.dstCap) : t.dst.read a = some (Config.freeByte (s.freeCount + a)) := by
  cases engineStep_outcome hb hstep with
  | runs _ hbusy => exact absurd ht hbusy
  | encoded _ => exact absurd rfl hst
  | decoded _ => exact absurd rfl hst
  | fails hledger _ =>
    obtain ⟨-, -, hcap, hcount⟩ := State.ledger_eq_iff.1 hledger
    rw [State.fail_dst_read, hcap, hcount, if_pos ha]

/-- Settles O27: the draws of the failure below `DST_CAP`, and the frame of every engine step for the rest. -/
theorem failureLeavesDstUnspecified : Obligations.FailureLeavesDstUnspecified := by
  intro s t hinv hb hr hstep ht hst
  obtain ⟨⟨-, -, -, -, hsrc, -⟩, -⟩ := engineStepKeepsOperands s t hb hr hstep
  refine ⟨hsrc, fun a ha => ?_, engineWritesInsideCapacity s t hinv hb hr hstep⟩
  rw [step_busy hr hb] at hstep
  exact engineStep_draws_below (s := s.pollHost) hb hstep ht hst ha

/-- Settles O30: the host's step finds no statement at its position. -/
theorem idleBlockTakesNoStep : Obligations.IdleBlockTakesNoStep := by
  intro s hp hr hend
  rw [step_idle hr hp]
  unfold hostStep
  rw [List.getElem?_eq_none hend]

end Sys2Proof.Machine

/-! SUPPORT. Hardware reset (spec/70_reset_and_hazards.md R240, R243): what it leaves of an IDLE block and of a running command. -/

namespace Sys2Proof.Machine

open Sys2Proof

/-- After a reset no host-visible register but `BUSY` counts as written (R240). -/
theorem State.resetAt_isWritten (n : Nat) {r : HostReg} (hr : r ≠ .busy) : (State.resetAt n).isWritten r = false := by
  cases r with
  | busy => exact absurd rfl hr
  | _ => rfl

section HardReset

variable {s : State}

@[simp] theorem State.hardReset_phase : s.hardReset.phase = .idle := rfl

@[simp] theorem State.hardReset_busy : s.hardReset.busy = false := rfl

@[simp] theorem State.hardReset_src : s.hardReset.src = s.src := rfl

/-- The registers' marks are those of the reset state (R240). -/
theorem State.hardReset_isWritten {r : HostReg} (hr : r ≠ .busy) : s.hardReset.isWritten r = false := by
  have hmarks : s.hardReset.isWritten r = (State.resetAt s.sizeBits).isWritten r := by cases r <;> rfl
  rw [hmarks, State.resetAt_isWritten _ hr]

theorem State.hardReset_dst_of_idle (hp : s.phase = .idle) : s.hardReset.dst = s.dst := by
  simp [State.hardReset, State.busy_eq_false.2 hp]

/-- A reset of a running command leaves `DST` as a failure does: free draws below `DST_CAP`, unchanged above (R213, R243). -/
theorem State.hardReset_dst_read (hb : s.phase ≠ .idle) (a : Nat) :
    s.hardReset.dst.read a = if a < s.dstCap then some (Config.freeByte (s.freeCount + a)) else s.dst.read a := by
  have hdst : s.hardReset.dst = s.dst.drawBelow s.dstCap s.freeCount := if_pos (State.busy_eq_true.2 hb)
  rw [hdst, Memory.read_drawBelow]

/-- A reset that arrives takes the step, IDLE or busy (R240, R243). -/
theorem step_hardReset (hr : s.resetIn = some 0) : step s = .next s.hardReset := by
  unfold step machineStep
  rw [hr]

end HardReset

/-- Settles O1: the reset is that of `State.resetAt`, but for the buffers, the host and the draw counter. -/
theorem hardResetLeavesIdleAndUnwritten : Obligations.HardResetLeavesIdleAndUnwritten :=
  fun _ => ⟨rfl, rfl, fun _ => State.hardReset_isWritten, rfl, rfl, rfl, State.hardReset_dst_of_idle, step_hardReset, rfl, rfl,
    fun _ => State.resetAt_isWritten 16⟩

/-- Settles O2: the step is the hardware reset, and a busy block's `DST` is drawn below `DST_CAP`. -/
theorem resetWhileBusyAbandonsCommand : Obligations.ResetWhileBusyAbandonsCommand := by
  intro s hb hr
  refine ⟨s.hardReset, step_hardReset hr, State.hardReset_phase, State.hardReset_busy, fun _ => State.hardReset_isWritten,
    State.hardReset_src, fun a ha => ?_, fun a ha => ?_⟩
  · rw [State.hardReset_dst_read hb, if_pos ha]
  · rw [State.hardReset_dst_read hb, if_neg (Nat.not_lt.2 ha)]

end Sys2Proof.Machine

/-! SUPPORT. How a whole command ends, and that it does (spec/70_reset_and_hazards.md R241, R260). -/

namespace Sys2Proof.Machine

open Sys2Proof

/-! The triple and the bytes that a command ends with. -/

/-- The command has completed with the triple `R`, and on OK with its bytes at `DST[0:PRODUCED]`. -/
def State.EndsWith (t : State) (R : DecodeResult) : Prop :=
  t.Completed R.status R.consumed R.produced 0 ∧ (R.status = .ok → t.dst.bytesAt 0 R.produced = some R.written)

/-- What an ENCODE whose canonical packet is `E` ends with (R123). -/
def encodeResult (E : List Byte) (cap : Nat) : DecodeResult :=
  if E.length ≤ cap then ⟨.ok, 0, E.length, E⟩ else ⟨.writeOverflow, 0, 0, []⟩

section EndsWith

variable {s t t' : State} {R : DecodeResult}

theorem State.EndsWith.busy (h : t.EndsWith R) : t.busy = false := by
  obtain ⟨⟨-, -, -, -, -, hidle⟩, -⟩ := h
  exact State.busy_eq_false.2 hidle

/-- Two commands that end with one result report the same, and on OK leave the same bytes. -/
theorem State.EndsWith.sameOutcome (h : t.EndsWith R) (h' : t'.EndsWith R) :
    t.SameResults t' ∧ (t.status = .ok → t.dst.bytesAt 0 t.produced = t'.dst.bytesAt 0 t.produced) := by
  obtain ⟨⟨hst, hc, hp, hr, -⟩, hbytes⟩ := h
  obtain ⟨⟨hst', hc', hp', hr', -⟩, hbytes'⟩ := h'
  refine ⟨⟨hst'.trans hst.symm, hp'.trans hp.symm, hc'.trans hc.symm, hr'.trans hr.symm⟩, fun hok => ?_⟩
  have hR : R.status = .ok := hst.symm.trans hok
  rw [hp, hbytes hR, hbytes' hR]

theorem State.EncodesTo.endsWith {E : List Byte} (h : s.EncodesTo E t) : t.EndsWith (encodeResult E s.dstCap) := by
  obtain ⟨-, hfits, hoverflows⟩ := h
  unfold encodeResult
  split_ifs with hroom
  · obtain ⟨hdone, hbytes, -⟩ := hfits hroom
    exact ⟨hdone, fun _ => hbytes⟩
  · obtain ⟨hdone, -⟩ := hoverflows (Nat.lt_of_not_le hroom)
    exact ⟨hdone, fun hok => by cases hok⟩

theorem State.DecodesTo.endsWith (h : s.DecodesTo R t) : t.EndsWith R := by
  obtain ⟨-, hdone, hok, -⟩ := h
  exact ⟨hdone, fun hst => (hok hst).1⟩

end EndsWith

/-! More steps than a command takes change nothing. -/

theorem runCommand_more {k : Nat} {s t : State} (h : runCommand k s = .next t) (ht : t.phase = .idle) (n : Nat) :
    runCommand (k + n) s = .next t := by
  induction k generalizing s with
  | zero =>
    cases h
    exact runCommand_idle ht _
  | succ k ih =>
    rw [Nat.add_right_comm]
    unfold runCommand at h ⊢
    split_ifs at h ⊢ with hb
    · cases hstep : step s <;> simp only [hstep] at h ⊢
      case next u => exact ih h
      all_goals cases h
    · exact h

theorem issueAndRun_more {i : Instr} {k : Nat} {s t : State} (h : issueAndRun i k s = .next t) (ht : t.phase = .idle) (n : Nat) :
    issueAndRun i (k + n) s = .next t := by
  unfold issueAndRun at h ⊢
  cases hexec : exec i s <;> simp only [hexec] at h ⊢
  case next u => exact runCommand_more h ht n
  all_goals cases h

/-- What ENCODE and DECODE end with is a function of the source bytes and the capacity (R241). -/
theorem issueAndRun_codec {i : Instr} (hi : i = .encodeCmd ∨ i = .decodeCmd) (x : List Byte) (cap : Nat) :
    ∃ R : DecodeResult, ∀ s : State, s.Ready x → s.dstCap = cap →
      ∃ t, issueAndRun i (s.srcLen + 2) s = .next t ∧ t.EndsWith R := by
  rcases hi with rfl | rfl
  · refine ⟨encodeResult (cobsEncodeBytes x) cap, ?_⟩
    rintro s h rfl
    obtain ⟨t, ht, henc⟩ := issueAndRun_encodeCmd h
    exact ⟨t, ht, henc.endsWith⟩
  · refine ⟨cobsDecode x cap, ?_⟩
    rintro s h rfl
    obtain ⟨t, ht, hdec⟩ := issueAndRun_decodeCmd h
    have hend := hdec.endsWith
    exact ⟨t, issueAndRun_more ht (State.busy_eq_false.1 hend.busy) 1, hend⟩

/-- Settles O46: both blocks end with the one result that the source bytes and the capacity give. -/
theorem outcomeDependsOnlyOnOperands : Obligations.OutcomeDependsOnlyOnOperands := by
  intro i s s' x hi h h' hlen hcap
  obtain ⟨R, hR⟩ := issueAndRun_codec hi x s.dstCap
  obtain ⟨t, ht, hend⟩ := hR s h rfl
  obtain ⟨t', ht', hend'⟩ := hR s' h' hcap.symm
  rw [← hlen] at ht'
  exact ⟨t, t', ht, ht', hend.sameOutcome hend'⟩

/-! Progress (R260): the operations after the read of a byte leave `RD` where the read has put it. -/

section ReadCursor

variable (s : State)

theorem State.pushThen_rd (v : Byte) {k : State → State} (hk : ∀ u, (k u).rd = u.rd) : (s.pushThen v k).rd = s.rd := by
  rcases s.pushThen_cases v k with ⟨-, heq⟩ | ⟨-, heq⟩ <;> rw [heq]
  · rw [hk, State.placeByte_rd]
  · exact s.fail_rd _ _

@[simp] theorem State.reserveSlot_rd : s.reserveSlot.rd = s.rd := by
  rcases s.reserveSlot_cases with ⟨-, heq⟩ | ⟨-, heq⟩ <;> rw [heq]
  · exact s.openSlot_rd
  · exact s.fail_rd _ _

@[simp] theorem State.takeOffset_rd (c : Byte) : (s.takeOffset c).rd = s.rd := by
  rcases s.takeOffset_cases c with heq | ⟨-, -, heq⟩ | heq <;> rw [heq] <;> simp

@[simp] theorem State.closeFullRun_rd : s.closeFullRun.rd = s.rd := by
  unfold State.closeFullRun
  split_ifs
  · simp
  · rfl

/-- What ENC.DATA does once its byte is placed (R127) leaves `RD` alone. -/
theorem State.encDataRest_rd : (if s.countRun.runFull then s.countRun.closeFullRun else s.countRun).rd = s.rd := by
  split_ifs <;> simp

/-- ENC_FINISH completes, with OK or with WRITE_OVERFLOW (R129). -/
theorem State.finishEncode_phase : s.finishEncode.phase = .idle := by
  rw [State.finishEncode_eq]
  rcases s.finalizePending.pushThen_cases marker fun s => s.complete .ok 0 s.wr 0 with ⟨-, heq⟩ | ⟨-, heq⟩ <;> rw [heq] <;> rfl

end ReadCursor

/-- A busy engine's step reads a byte, which moves `RD`, or leaves its phase (R260). -/
theorem engineStep_progress {s t : State} (hb : s.phase ≠ .idle) (hstep : engineStep s = .next t) :
    t.rd = s.rd + 1 ∨ t.phase ≠ s.phase := by
  rcases engineStep_busy_cases hb hstep with ⟨-, rfl⟩ | ⟨hp, -, rfl⟩ | ⟨-, -, rfl⟩ | ⟨-, b, -, hclass⟩
  · exact .inr (by rw [State.finishEncode_phase]; exact hb.symm)
  · exact .inr (by simp [hp])
  · exact .inr hb.symm
  · refine .inl ?_
    rcases hclass with ⟨-, -, rfl⟩ | ⟨-, -, rfl⟩ | ⟨-, -, -, rfl⟩ | ⟨-, -, -, rfl⟩ | ⟨-, -, rfl⟩ | ⟨-, -, rfl⟩ | ⟨-, -, rfl⟩
    · simp
    · exact s.advanceRd.pushThen_rd b State.encDataRest_rd
    · simp
    · simp
    · simp
    · simp
    · exact s.advanceRd.pushThen_rd b State.countDown_rd

/-- Settles O45: the estimators complete at issue, the codecs by their simulations, and a read moves `RD`. -/
theorem commandsCompleteWithinTheirBounds : Obligations.CommandsCompleteWithinTheirBounds := by
  refine ⟨fun i s t hi hx => ?_, fun s x h => ⟨?_, ?_⟩, fun s t hb hr hstep => ?_⟩
  · obtain ⟨code, f, hnext⟩ := exec_estimator_next hi
    obtain ⟨-, rfl⟩ := hnext s t hx
    rfl
  · obtain ⟨t, ht, henc⟩ := issueAndRun_encodeCmd h
    exact ⟨t, ht, henc.endsWith.busy⟩
  · obtain ⟨t, ht, hdec⟩ := issueAndRun_decodeCmd h
    exact ⟨t, ht, hdec.endsWith.busy⟩
  · rw [step_busy hr hb] at hstep
    rcases engineStep_progress (s := s.pollHost) hb hstep with hrd | hphase
    · exact .inl (Nat.lt_of_lt_of_eq (Nat.lt_succ_self s.rd) hrd.symm)
    · exact .inr hphase

end Sys2Proof.Machine
